-- ==== Sys2Proof/Word.lean ====
section
/-! DEFINITION. The word types of the CORE (00_scope.md R9 to R11): two operand widths, bytes, 16-bit words,
16-bit addresses and register indices. Bit 0 is the least significant bit and every value is unsigned (R10). -/

namespace Sys2Proof

/-- An 8-bit value: a small register, a memory byte (R10, R21, R29). -/
abbrev Byte := BitVec 8

/-- A 16-bit value: a wide register, a 16-bit literal (R10, R22). -/
abbrev Word := BitVec 16

/-- A 16-bit address field of an instruction (R42, R65). -/
abbrev Addr := BitVec 16

/-- A register index: a 4-bit field, so always 0..15 (R25, R67). -/
abbrev RegIdx := Fin 16

/-- The operation selector `s`, 5 bits (R9, R61). -/
abbrev Selector := BitVec 5

/-- The two operand widths, each with its own register bank (R11, R14). -/
inductive Width where
  /-- 8 bits: the small bank. -/
  | small
  /-- 16 bits: the wide bank. -/
  | wide
deriving DecidableEq, Repr

/-- BITS(w) of R11. -/
abbrev Width.bits : Width → Nat
  | .small => 8
  | .wide => 16

end Sys2Proof
end

