-- ==== Sys2Proof/Syntax.lean ====
section
/-! DEFINITION. The syntax of the CORE's instructions, whole.
`AluOp` are the thirty-two operations of 44_alu.md R151; `OpClass` the twelve shapes an opcode byte is classified
into (30_encoding.md R70); `Shape` the decoder's structured result (R74), which names an operation by its selector
and so does not depend on ALU_SELECTOR_MAP; `Instr` the instructions of spec/opcode_table.json, one constructor for
each row, which name the operation under the reference ALU_SELECTOR_MAP (R69). -/

namespace Sys2Proof

/-- The thirty-two ALU operations (R151). `eq` and `ne` have no selector in the reference map (90_conflicts.md C1). -/
inductive AluOp where
  /-- R152: b. -/
  | copy
  /-- R153: bitwise complement of b. -/
  | not
  /-- R154: MAX − b. -/
  | neg
  /-- R155: bits of b reversed. -/
  | reverse
  /-- R156: bytes of b swapped. -/
  | numones
  /-- R157: number of set bits of b. -/
  | numzeros
  /-- R158: a ∧ b. -/
  | and
  /-- R159: a ∨ b. -/
  | or
  /-- R160: a ⊕ b. -/
  | xor
  /-- R161: a shifted left by b, 0 from BITS on. -/
  | shl
  /-- R162: a shifted right by b, 0 from BITS on. -/
  | shr
  /-- R163: a shifted left by b mod BITS. -/
  | shlm
  /-- R164: a shifted right by b mod BITS. -/
  | shrm
  /-- R165: a rotated left by b mod BITS. -/
  | rotl
  /-- R166: a rotated right by b mod BITS. -/
  | rotr
  /-- R167: a + b saturated. -/
  | addc
  /-- R168: a − b saturated. -/
  | subc
  /-- R169: a + b wrapped. -/
  | addm
  /-- R170: a − b wrapped. -/
  | subm
  /-- R171: |b − a|. -/
  | absdiff
  /-- R172: a × b saturated. -/
  | mulc
  /-- R173: a × b wrapped. -/
  | mulm
  /-- R174: a divided by max(b, 1). -/
  | div
  /-- R175: remainder of a by max(b, 1). -/
  | mod
  /-- R176: a to the b, wrapped. -/
  | powm
  /-- R177: a to the b, saturated. -/
  | powc
  /-- R178: 1 if a > b else 0. -/
  | gt
  /-- R179: 1 if a ≥ b else 0. -/
  | ge
  /-- R180: 1 if a < b else 0. -/
  | lt
  /-- R181: 1 if a ≤ b else 0. -/
  | le
  /-- R182: 1 if a = b else 0. -/
  | eq
  /-- R183: 1 if a ≠ b else 0. -/
  | ne
deriving DecidableEq, Repr

/-- The four arithmetic classes, op[7:5] = 0b100..0b111 (R63). -/
inductive ArithClass where
  /-- `OP rA, rB` (R200). -/
  | binOpSmall
  /-- `OP.w wA, wB` (R201). -/
  | binOpWide
  /-- `OP.i rA, rB, V` (R202). -/
  | binOpImmSmall
  /-- `OP.wi wA, wB, V` (R203). -/
  | binOpImmWide
deriving DecidableEq, Repr

/-- The twelve shapes an opcode byte is classified into: eight simple classes and four arithmetic ones (R70). -/
inductive OpClass where
  | output | outputWide | loadMem | loadMemWide | storeMem | storeMemWide | jump | jumpIfOdd
  | arith (c : ArithClass)
deriving DecidableEq, Repr

/-- The decoder's result: exactly the operand fields the shape needs (R74). `invalidSelector` stands for the eight
illegal opcode bytes, which are classified to an arithmetic class but name no operation (R70, R71). -/
inductive Shape where
  | output (r : RegIdx)
  | outputWide (r : RegIdx)
  | loadMem (r : RegIdx) (addr : Addr)
  | loadMemWide (r : RegIdx) (addr : Addr)
  | storeMem (r : RegIdx) (addr : Addr)
  | storeMemWide (r : RegIdx) (addr : Addr)
  | jump (addr : Addr)
  | jumpIfOdd (r : RegIdx) (addr : Addr)
  | binOpSmall (s : Selector) (a b : RegIdx)
  | binOpWide (s : Selector) (a b : RegIdx)
  | binOpImmSmall (s : Selector) (a b : RegIdx) (v : Byte)
  | binOpImmWide (s : Selector) (a b : RegIdx) (v : Word)
  | invalidSelector (c : ArithClass) (s : Selector)
deriving DecidableEq, Repr

/-- The instructions: one constructor for each row of spec/opcode_table.json. A register field is an index into the
bank of the instruction's width (R67); in an arithmetic instruction `a` is the high nibble of the operand byte and
`b` the low one (R64). `jmp` has no field for its don't-care nibble (R72). -/
inductive Instr where
  /-- `output rN` (R110). -/
  | output (r : RegIdx)
  /-- `outputw wN` (R111). -/
  | outputw (r : RegIdx)
  /-- `loadmem rN <- ADDR` (R120). -/
  | loadmem (r : RegIdx) (addr : Addr)
  /-- `loadmemw wN <- ADDR` (R121). -/
  | loadmemw (r : RegIdx) (addr : Addr)
  /-- `storemem ADDR <- rN` (R122). -/
  | storemem (r : RegIdx) (addr : Addr)
  /-- `storememw ADDR <- wN` (R123). -/
  | storememw (r : RegIdx) (addr : Addr)
  /-- `jmp ADDR` (R140). -/
  | jmp (addr : Addr)
  /-- `jmpodd rN, ADDR` (R141). -/
  | jmpodd (r : RegIdx) (addr : Addr)
  /-- `copy rA, rB` (R200, R152). -/
  | copy (a b : RegIdx)
  /-- `not rA, rB` (R200, R153). -/
  | not (a b : RegIdx)
  /-- `neg rA, rB` (R200, R154). -/
  | neg (a b : RegIdx)
  /-- `reverse rA, rB` (R200, R155). -/
  | reverse (a b : RegIdx)
  /-- `numones rA, rB` (R200, R156). -/
  | numones (a b : RegIdx)
  /-- `numzeros rA, rB` (R200, R157). -/
  | numzeros (a b : RegIdx)
  /-- `and rA, rB` (R200, R158). -/
  | and (a b : RegIdx)
  /-- `or rA, rB` (R200, R159). -/
  | or (a b : RegIdx)
  /-- `xor rA, rB` (R200, R160). -/
  | xor (a b : RegIdx)
  /-- `shl rA, rB` (R200, R161). -/
  | shl (a b : RegIdx)
  /-- `shr rA, rB` (R200, R162). -/
  | shr (a b : RegIdx)
  /-- `shlm rA, rB` (R200, R163). -/
  | shlm (a b : RegIdx)
  /-- `shrm rA, rB` (R200, R164). -/
  | shrm (a b : RegIdx)
  /-- `rotl rA, rB` (R200, R165). -/
  | rotl (a b : RegIdx)
  /-- `rotr rA, rB` (R200, R166). -/
  | rotr (a b : RegIdx)
  /-- `addc rA, rB` (R200, R167). -/
  | addc (a b : RegIdx)
  /-- `subc rA, rB` (R200, R168). -/
  | subc (a b : RegIdx)
  /-- `addm rA, rB` (R200, R169). -/
  | addm (a b : RegIdx)
  /-- `subm rA, rB` (R200, R170). -/
  | subm (a b : RegIdx)
  /-- `absdiff rA, rB` (R200, R171). -/
  | absdiff (a b : RegIdx)
  /-- `mulc rA, rB` (R200, R172). -/
  | mulc (a b : RegIdx)
  /-- `mulm rA, rB` (R200, R173). -/
  | mulm (a b : RegIdx)
  /-- `div rA, rB` (R200, R174). -/
  | div (a b : RegIdx)
  /-- `mod rA, rB` (R200, R175). -/
  | mod (a b : RegIdx)
  /-- `powm rA, rB` (R200, R176). -/
  | powm (a b : RegIdx)
  /-- `powc rA, rB` (R200, R177). -/
  | powc (a b : RegIdx)
  /-- `gt rA, rB` (R200, R178). -/
  | gt (a b : RegIdx)
  /-- `ge rA, rB` (R200, R179). -/
  | ge (a b : RegIdx)
  /-- `lt rA, rB` (R200, R180). -/
  | lt (a b : RegIdx)
  /-- `le rA, rB` (R200, R181). -/
  | le (a b : RegIdx)
  /-- The table's reserved row 0x9E/0xFE: a binOpSmall opcode byte with selector 30 or 31 (R204, R221). -/
  | invalidSelector (s : Selector)
  /-- `copy.w wA, wB` (R201, R152). -/
  | copyW (a b : RegIdx)
  /-- `not.w wA, wB` (R201, R153). -/
  | notW (a b : RegIdx)
  /-- `neg.w wA, wB` (R201, R154). -/
  | negW (a b : RegIdx)
  /-- `reverse.w wA, wB` (R201, R155). -/
  | reverseW (a b : RegIdx)
  /-- `numones.w wA, wB` (R201, R156). -/
  | numonesW (a b : RegIdx)
  /-- `numzeros.w wA, wB` (R201, R157). -/
  | numzerosW (a b : RegIdx)
  /-- `and.w wA, wB` (R201, R158). -/
  | andW (a b : RegIdx)
  /-- `or.w wA, wB` (R201, R159). -/
  | orW (a b : RegIdx)
  /-- `xor.w wA, wB` (R201, R160). -/
  | xorW (a b : RegIdx)
  /-- `shl.w wA, wB` (R201, R161). -/
  | shlW (a b : RegIdx)
  /-- `shr.w wA, wB` (R201, R162). -/
  | shrW (a b : RegIdx)
  /-- `shlm.w wA, wB` (R201, R163). -/
  | shlmW (a b : RegIdx)
  /-- `shrm.w wA, wB` (R201, R164). -/
  | shrmW (a b : RegIdx)
  /-- `rotl.w wA, wB` (R201, R165). -/
  | rotlW (a b : RegIdx)
  /-- `rotr.w wA, wB` (R201, R166). -/
  | rotrW (a b : RegIdx)
  /-- `addc.w wA, wB` (R201, R167). -/
  | addcW (a b : RegIdx)
  /-- `subc.w wA, wB` (R201, R168). -/
  | subcW (a b : RegIdx)
  /-- `addm.w wA, wB` (R201, R169). -/
  | addmW (a b : RegIdx)
  /-- `subm.w wA, wB` (R201, R170). -/
  | submW (a b : RegIdx)
  /-- `absdiff.w wA, wB` (R201, R171). -/
  | absdiffW (a b : RegIdx)
  /-- `mulc.w wA, wB` (R201, R172). -/
  | mulcW (a b : RegIdx)
  /-- `mulm.w wA, wB` (R201, R173). -/
  | mulmW (a b : RegIdx)
  /-- `div.w wA, wB` (R201, R174). -/
  | divW (a b : RegIdx)
  /-- `mod.w wA, wB` (R201, R175). -/
  | modW (a b : RegIdx)
  /-- `powm.w wA, wB` (R201, R176). -/
  | powmW (a b : RegIdx)
  /-- `powc.w wA, wB` (R201, R177). -/
  | powcW (a b : RegIdx)
  /-- `gt.w wA, wB` (R201, R178). -/
  | gtW (a b : RegIdx)
  /-- `ge.w wA, wB` (R201, R179). -/
  | geW (a b : RegIdx)
  /-- `lt.w wA, wB` (R201, R180). -/
  | ltW (a b : RegIdx)
  /-- `le.w wA, wB` (R201, R181). -/
  | leW (a b : RegIdx)
  /-- The table's reserved row 0xBE/0xFE: a binOpWide opcode byte with selector 30 or 31 (R204, R221). -/
  | invalidSelectorW (s : Selector)
  /-- `copy.i rA, rB, V` (R202, R152). -/
  | copyI (a b : RegIdx) (v : Byte)
  /-- `not.i rA, rB, V` (R202, R153). -/
  | notI (a b : RegIdx) (v : Byte)
  /-- `neg.i rA, rB, V` (R202, R154). -/
  | negI (a b : RegIdx) (v : Byte)
  /-- `reverse.i rA, rB, V` (R202, R155). -/
  | reverseI (a b : RegIdx) (v : Byte)
  /-- `numones.i rA, rB, V` (R202, R156). -/
  | numonesI (a b : RegIdx) (v : Byte)
  /-- `numzeros.i rA, rB, V` (R202, R157). -/
  | numzerosI (a b : RegIdx) (v : Byte)
  /-- `and.i rA, rB, V` (R202, R158). -/
  | andI (a b : RegIdx) (v : Byte)
  /-- `or.i rA, rB, V` (R202, R159). -/
  | orI (a b : RegIdx) (v : Byte)
  /-- `xor.i rA, rB, V` (R202, R160). -/
  | xorI (a b : RegIdx) (v : Byte)
  /-- `shl.i rA, rB, V` (R202, R161). -/
  | shlI (a b : RegIdx) (v : Byte)
  /-- `shr.i rA, rB, V` (R202, R162). -/
  | shrI (a b : RegIdx) (v : Byte)
  /-- `shlm.i rA, rB, V` (R202, R163). -/
  | shlmI (a b : RegIdx) (v : Byte)
  /-- `shrm.i rA, rB, V` (R202, R164). -/
  | shrmI (a b : RegIdx) (v : Byte)
  /-- `rotl.i rA, rB, V` (R202, R165). -/
  | rotlI (a b : RegIdx) (v : Byte)
  /-- `rotr.i rA, rB, V` (R202, R166). -/
  | rotrI (a b : RegIdx) (v : Byte)
  /-- `addc.i rA, rB, V` (R202, R167). -/
  | addcI (a b : RegIdx) (v : Byte)
  /-- `subc.i rA, rB, V` (R202, R168). -/
  | subcI (a b : RegIdx) (v : Byte)
  /-- `addm.i rA, rB, V` (R202, R169). -/
  | addmI (a b : RegIdx) (v : Byte)
  /-- `subm.i rA, rB, V` (R202, R170). -/
  | submI (a b : RegIdx) (v : Byte)
  /-- `absdiff.i rA, rB, V` (R202, R171). -/
  | absdiffI (a b : RegIdx) (v : Byte)
  /-- `mulc.i rA, rB, V` (R202, R172). -/
  | mulcI (a b : RegIdx) (v : Byte)
  /-- `mulm.i rA, rB, V` (R202, R173). -/
  | mulmI (a b : RegIdx) (v : Byte)
  /-- `div.i rA, rB, V` (R202, R174). -/
  | divI (a b : RegIdx) (v : Byte)
  /-- `mod.i rA, rB, V` (R202, R175). -/
  | modI (a b : RegIdx) (v : Byte)
  /-- `powm.i rA, rB, V` (R202, R176). -/
  | powmI (a b : RegIdx) (v : Byte)
  /-- `powc.i rA, rB, V` (R202, R177). -/
  | powcI (a b : RegIdx) (v : Byte)
  /-- `gt.i rA, rB, V` (R202, R178). -/
  | gtI (a b : RegIdx) (v : Byte)
  /-- `ge.i rA, rB, V` (R202, R179). -/
  | geI (a b : RegIdx) (v : Byte)
  /-- `lt.i rA, rB, V` (R202, R180). -/
  | ltI (a b : RegIdx) (v : Byte)
  /-- `le.i rA, rB, V` (R202, R181). -/
  | leI (a b : RegIdx) (v : Byte)
  /-- The table's reserved row 0xDE/0xFE: a binOpImmSmall opcode byte with selector 30 or 31 (R204, R221). -/
  | invalidSelectorI (s : Selector)
  /-- `copy.wi wA, wB, V` (R203, R152). -/
  | copyWi (a b : RegIdx) (v : Word)
  /-- `not.wi wA, wB, V` (R203, R153). -/
  | notWi (a b : RegIdx) (v : Word)
  /-- `neg.wi wA, wB, V` (R203, R154). -/
  | negWi (a b : RegIdx) (v : Word)
  /-- `reverse.wi wA, wB, V` (R203, R155). -/
  | reverseWi (a b : RegIdx) (v : Word)
  /-- `numones.wi wA, wB, V` (R203, R156). -/
  | numonesWi (a b : RegIdx) (v : Word)
  /-- `numzeros.wi wA, wB, V` (R203, R157). -/
  | numzerosWi (a b : RegIdx) (v : Word)
  /-- `and.wi wA, wB, V` (R203, R158). -/
  | andWi (a b : RegIdx) (v : Word)
  /-- `or.wi wA, wB, V` (R203, R159). -/
  | orWi (a b : RegIdx) (v : Word)
  /-- `xor.wi wA, wB, V` (R203, R160). -/
  | xorWi (a b : RegIdx) (v : Word)
  /-- `shl.wi wA, wB, V` (R203, R161). -/
  | shlWi (a b : RegIdx) (v : Word)
  /-- `shr.wi wA, wB, V` (R203, R162). -/
  | shrWi (a b : RegIdx) (v : Word)
  /-- `shlm.wi wA, wB, V` (R203, R163). -/
  | shlmWi (a b : RegIdx) (v : Word)
  /-- `shrm.wi wA, wB, V` (R203, R164). -/
  | shrmWi (a b : RegIdx) (v : Word)
  /-- `rotl.wi wA, wB, V` (R203, R165). -/
  | rotlWi (a b : RegIdx) (v : Word)
  /-- `rotr.wi wA, wB, V` (R203, R166). -/
  | rotrWi (a b : RegIdx) (v : Word)
  /-- `addc.wi wA, wB, V` (R203, R167). -/
  | addcWi (a b : RegIdx) (v : Word)
  /-- `subc.wi wA, wB, V` (R203, R168). -/
  | subcWi (a b : RegIdx) (v : Word)
  /-- `addm.wi wA, wB, V` (R203, R169). -/
  | addmWi (a b : RegIdx) (v : Word)
  /-- `subm.wi wA, wB, V` (R203, R170). -/
  | submWi (a b : RegIdx) (v : Word)
  /-- `absdiff.wi wA, wB, V` (R203, R171). -/
  | absdiffWi (a b : RegIdx) (v : Word)
  /-- `mulc.wi wA, wB, V` (R203, R172). -/
  | mulcWi (a b : RegIdx) (v : Word)
  /-- `mulm.wi wA, wB, V` (R203, R173). -/
  | mulmWi (a b : RegIdx) (v : Word)
  /-- `div.wi wA, wB, V` (R203, R174). -/
  | divWi (a b : RegIdx) (v : Word)
  /-- `mod.wi wA, wB, V` (R203, R175). -/
  | modWi (a b : RegIdx) (v : Word)
  /-- `powm.wi wA, wB, V` (R203, R176). -/
  | powmWi (a b : RegIdx) (v : Word)
  /-- `powc.wi wA, wB, V` (R203, R177). -/
  | powcWi (a b : RegIdx) (v : Word)
  /-- `gt.wi wA, wB, V` (R203, R178). -/
  | gtWi (a b : RegIdx) (v : Word)
  /-- `ge.wi wA, wB, V` (R203, R179). -/
  | geWi (a b : RegIdx) (v : Word)
  /-- `lt.wi wA, wB, V` (R203, R180). -/
  | ltWi (a b : RegIdx) (v : Word)
  /-- `le.wi wA, wB, V` (R203, R181). -/
  | leWi (a b : RegIdx) (v : Word)
  /-- The table's reserved row 0xFE/0xFE: a binOpImmWide opcode byte with selector 30 or 31 (R204, R221). -/
  | invalidSelectorWi (s : Selector)
deriving DecidableEq, Repr

end Sys2Proof
end

