-- ==== Sys2Proof/Config.lean ====
section
/-! DEFINITION. The implementation parameters of 00_scope.md R9. `MEM_SIZE` has its hardware value; the two OPEN
parameters, ALU_SELECTOR_MAP and TERMINATION, are types here, and the definitions that depend on them take them as
arguments (Machine/SelectorMachine.lean, Machine/HostInterface.lean). The spec states every result of every
instruction, so the model needs no free value. -/

namespace Sys2Proof

/-- MEM_SIZE: bytes of memory (R9, R29). -/
def Config.memSize : Nat := 65536

/-- NUM_OPS: assigned selectors, 0..29 (R9, R68). -/
def Config.numOps : Nat := 30

/-- ALU_SELECTOR_MAP, an OPEN parameter (R68, R69, decision D1): the operation of each selector 0..29, in order,
injective into the thirty-two operations. -/
structure Config.SelectorMap where
  /-- `ops[s]` is the operation selector `s` names. -/
  ops : List AluOp
  /-- Exactly the selectors 0..29 are assigned (R68). -/
  length_ops : ops.length = Config.numOps
  /-- No operation has two selectors (R69). -/
  nodup_ops : ops.Nodup

/-- The operation a selector names: none for 30 and 31, which are unassigned (R68). -/
def Config.SelectorMap.lookup (m : Config.SelectorMap) (s : Selector) : Option AluOp :=
  m.ops[s.toNat]?

/-- TERMINATION, an OPEN parameter: the host's policy for when a run stops (R97, decision D11). -/
inductive Config.Termination where
  /-- The host calls `step()` at most `n` times. -/
  | stepBudget (n : Nat)
  /-- The host steps until an external stop signal, honoured between steps only. -/
  | externalStop
  /-- The host steps until status is Faulted; the opcode fetch past the end of memory is then normal termination. -/
  | pcLeavesMemory
deriving DecidableEq, Repr

end Sys2Proof
end

