-- ==== Sys2Proof/WellFormed.lean ====
section
/-! DEFINITION. Which instruction terms an encoding exists for. Every register field, address and literal is legal at
every value of its type (30_encoding.md R67, R71), so the one check is on the reserved rows: their selector is one of
the unassigned values 30 and 31 (R68). -/

namespace Sys2Proof

/-- A selector that names no operation: 30 or 31 (R68). -/
def unassignedSelector (s : Selector) : Bool := Config.numOps ≤ s.toNat

/-- An instruction some bytes encode. -/
def Instr.wellFormed : Instr → Bool
  | .invalidSelector s => unassignedSelector s
  | .invalidSelectorW s => unassignedSelector s
  | .invalidSelectorI s => unassignedSelector s
  | .invalidSelectorWi s => unassignedSelector s
  | _ => true

/-- A shape some bytes encode: the arithmetic shapes carry an assigned selector, `invalidSelector` an unassigned one. -/
def Shape.wellFormed : Shape → Bool
  | .binOpSmall s _ _ => !unassignedSelector s
  | .binOpWide s _ _ => !unassignedSelector s
  | .binOpImmSmall s _ _ _ => !unassignedSelector s
  | .binOpImmWide s _ _ _ => !unassignedSelector s
  | .invalidSelector _ s => unassignedSelector s
  | _ => true

end Sys2Proof
end

