-- ==== Sys2Proof/Decode.lean ====
section
/-! DEFINITION. Decoding and encoding (30_encoding.md).
The decoder is given the byte window at the program counter: the bytes from `pc` that memory has, at most four. It
classifies the opcode byte (R61, R70), makes the checks of R73 in R73's order, assembles the operand fields (R64 to
R67) into a `Shape`, and names the instruction under the reference ALU_SELECTOR_MAP (R69). It is total on any bytes.
The encoder writes the same fields (R64, R75). -/

namespace Sys2Proof

/-! ### Fields and byte order -/

/-- Bits 3:0 of a byte: `r` of the opcode byte, `B` of the operand byte (R64, R67). -/
def loNibble (b : Byte) : RegIdx := (b.extractLsb' 0 4).toFin

/-- Bits 7:4 of a byte: `A` of the operand byte (R64, R67). -/
def hiNibble (b : Byte) : RegIdx := (b.extractLsb' 4 4).toFin

/-- Bits 4:0 of the opcode byte: the operation selector `s` (R68). -/
def selectorField (op : Byte) : Selector := op.extractLsb' 0 5

/-- A 16-bit value from its two bytes, low byte first (R47, R65, R66). -/
def joinBytes (lo hi : Byte) : Word := hi ++ lo

/-- Bits 7:0 of a 16-bit value (R47). -/
def lowByte (w : Word) : Byte := w.extractLsb' 0 8

/-- Bits 15:8 of a 16-bit value (R47). -/
def highByte (w : Word) : Byte := w.extractLsb' 8 8

/-! ### The opcode byte -/

/-- The class of an opcode byte, total over 0x00..0xFF, from its bits 7, 6, 5 and 4: a simple class is op[7:4], an
arithmetic class is op[7:5] (R61, R62, R63, R70). -/
def classify (op : Byte) : OpClass :=
  match op.getLsbD 7, op.getLsbD 6, op.getLsbD 5, op.getLsbD 4 with
  | false, false, false, false => .output
  | false, false, false, true => .outputWide
  | false, false, true, false => .loadMem
  | false, false, true, true => .loadMemWide
  | false, true, false, false => .storeMem
  | false, true, false, true => .storeMemWide
  | false, true, true, false => .jump
  | false, true, true, true => .jumpIfOdd
  | true, false, false, _ => .arith .binOpSmall
  | true, false, true, _ => .arith .binOpWide
  | true, true, false, _ => .arith .binOpImmSmall
  | true, true, true, _ => .arith .binOpImmWide

/-- LENGTH(op): the encoded length the opcode byte's class gives (R62, R63, R73). -/
def OpClass.length : OpClass → Nat
  | .output => 1
  | .outputWide => 1
  | .loadMem => 3
  | .loadMemWide => 3
  | .storeMem => 3
  | .storeMemWide => 3
  | .jump => 3
  | .jumpIfOdd => 3
  | .arith .binOpSmall => 2
  | .arith .binOpWide => 2
  | .arith .binOpImmSmall => 3
  | .arith .binOpImmWide => 4

/-! ### From bytes to a shape -/

/-- The operand fields of a legal instruction of a class, from its opcode byte and the three bytes after it, of which
the class uses `length − 1` (R64 to R67). -/
def assemble (cls : OpClass) (op b1 b2 b3 : Byte) : Shape :=
  match cls with
  | .output => .output (loNibble op)
  | .outputWide => .outputWide (loNibble op)
  | .loadMem => .loadMem (loNibble op) (joinBytes b1 b2)
  | .loadMemWide => .loadMemWide (loNibble op) (joinBytes b1 b2)
  | .storeMem => .storeMem (loNibble op) (joinBytes b1 b2)
  | .storeMemWide => .storeMemWide (loNibble op) (joinBytes b1 b2)
  | .jump => .jump (joinBytes b1 b2)
  | .jumpIfOdd => .jumpIfOdd (loNibble op) (joinBytes b1 b2)
  | .arith .binOpSmall => .binOpSmall (selectorField op) (hiNibble b1) (loNibble b1)
  | .arith .binOpWide => .binOpWide (selectorField op) (hiNibble b1) (loNibble b1)
  | .arith .binOpImmSmall => .binOpImmSmall (selectorField op) (hiNibble b1) (loNibble b1) b2
  | .arith .binOpImmWide => .binOpImmWide (selectorField op) (hiNibble b1) (loNibble b1) (joinBytes b2 b3)

/-- The illegal opcode bytes: an arithmetic class with selector 30 or 31, and which class it is (R71). -/
def illegalOpcode (op : Byte) : Option ArithClass :=
  match classify op with
  | .arith c => if unassignedSelector (selectorField op) then some c else none
  | _ => none

/-- Why a window gives no instruction: the decode faults other than InvalidOperation, which is the meaning of the
illegal opcode bytes (R73). -/
inductive DecodeError where
  /-- The window is empty: the opcode byte lies beyond memory (R222 case (a)). -/
  | noOpcodeByte
  /-- The window is shorter than the length the opcode byte gives (R223). -/
  | truncated
deriving DecidableEq, Repr

/-- Decode a byte window, with the three checks of R73 in its order: the opcode byte is there, its selector is
assigned, the operand bytes are there. -/
def decodeShape : List Byte → Except DecodeError Shape
  | [] => .error .noOpcodeByte
  | op :: rest =>
    match illegalOpcode op with
    | some c => .ok (.invalidSelector c (selectorField op))
    | none =>
      if rest.length + 1 < (classify op).length then .error .truncated
      else .ok (assemble (classify op) op (rest.getD 0 0) (rest.getD 1 0) (rest.getD 2 0))

/-! ### The reference ALU_SELECTOR_MAP -/

/-- The operations in the order of R69: selector `s` names the operation at place `s`. -/
def referenceOps : List AluOp :=
  [.copy, .not, .neg, .reverse, .numones, .numzeros, .and, .or, .xor, .shl,
   .shr, .shlm, .shrm, .rotl, .rotr, .addc, .subc, .addm, .subm, .absdiff,
   .mulc, .mulm, .div, .mod, .powm, .powc, .gt, .ge, .lt, .le]

/-- The reference value of ALU_SELECTOR_MAP (R69, decision D1). -/
def referenceMap : Config.SelectorMap where
  ops := referenceOps
  length_ops := by decide
  nodup_ops := by decide

/-- The BinOp small instruction a selector names under the reference map: the rows 0x80 to 0x9D of R69. -/
def Instr.ofBinOpSmall (s : Selector) (a b : RegIdx) : Instr :=
  match s.toNat with
  | 0 => .copy a b
  | 1 => .not a b
  | 2 => .neg a b
  | 3 => .reverse a b
  | 4 => .numones a b
  | 5 => .numzeros a b
  | 6 => .and a b
  | 7 => .or a b
  | 8 => .xor a b
  | 9 => .shl a b
  | 10 => .shr a b
  | 11 => .shlm a b
  | 12 => .shrm a b
  | 13 => .rotl a b
  | 14 => .rotr a b
  | 15 => .addc a b
  | 16 => .subc a b
  | 17 => .addm a b
  | 18 => .subm a b
  | 19 => .absdiff a b
  | 20 => .mulc a b
  | 21 => .mulm a b
  | 22 => .div a b
  | 23 => .mod a b
  | 24 => .powm a b
  | 25 => .powc a b
  | 26 => .gt a b
  | 27 => .ge a b
  | 28 => .lt a b
  | 29 => .le a b
  | _ => .invalidSelector s

/-- The BinOp wide instruction a selector names under the reference map: the rows 0xA0 to 0xBD of R69. -/
def Instr.ofBinOpWide (s : Selector) (a b : RegIdx) : Instr :=
  match s.toNat with
  | 0 => .copyW a b
  | 1 => .notW a b
  | 2 => .negW a b
  | 3 => .reverseW a b
  | 4 => .numonesW a b
  | 5 => .numzerosW a b
  | 6 => .andW a b
  | 7 => .orW a b
  | 8 => .xorW a b
  | 9 => .shlW a b
  | 10 => .shrW a b
  | 11 => .shlmW a b
  | 12 => .shrmW a b
  | 13 => .rotlW a b
  | 14 => .rotrW a b
  | 15 => .addcW a b
  | 16 => .subcW a b
  | 17 => .addmW a b
  | 18 => .submW a b
  | 19 => .absdiffW a b
  | 20 => .mulcW a b
  | 21 => .mulmW a b
  | 22 => .divW a b
  | 23 => .modW a b
  | 24 => .powmW a b
  | 25 => .powcW a b
  | 26 => .gtW a b
  | 27 => .geW a b
  | 28 => .ltW a b
  | 29 => .leW a b
  | _ => .invalidSelectorW s

/-- The BinOpImm small instruction a selector names under the reference map: the rows 0xC0 to 0xDD of R69. -/
def Instr.ofBinOpImmSmall (s : Selector) (a b : RegIdx) (v : Byte) : Instr :=
  match s.toNat with
  | 0 => .copyI a b v
  | 1 => .notI a b v
  | 2 => .negI a b v
  | 3 => .reverseI a b v
  | 4 => .numonesI a b v
  | 5 => .numzerosI a b v
  | 6 => .andI a b v
  | 7 => .orI a b v
  | 8 => .xorI a b v
  | 9 => .shlI a b v
  | 10 => .shrI a b v
  | 11 => .shlmI a b v
  | 12 => .shrmI a b v
  | 13 => .rotlI a b v
  | 14 => .rotrI a b v
  | 15 => .addcI a b v
  | 16 => .subcI a b v
  | 17 => .addmI a b v
  | 18 => .submI a b v
  | 19 => .absdiffI a b v
  | 20 => .mulcI a b v
  | 21 => .mulmI a b v
  | 22 => .divI a b v
  | 23 => .modI a b v
  | 24 => .powmI a b v
  | 25 => .powcI a b v
  | 26 => .gtI a b v
  | 27 => .geI a b v
  | 28 => .ltI a b v
  | 29 => .leI a b v
  | _ => .invalidSelectorI s

/-- The BinOpImm wide instruction a selector names under the reference map: the rows 0xE0 to 0xFD of R69. -/
def Instr.ofBinOpImmWide (s : Selector) (a b : RegIdx) (v : Word) : Instr :=
  match s.toNat with
  | 0 => .copyWi a b v
  | 1 => .notWi a b v
  | 2 => .negWi a b v
  | 3 => .reverseWi a b v
  | 4 => .numonesWi a b v
  | 5 => .numzerosWi a b v
  | 6 => .andWi a b v
  | 7 => .orWi a b v
  | 8 => .xorWi a b v
  | 9 => .shlWi a b v
  | 10 => .shrWi a b v
  | 11 => .shlmWi a b v
  | 12 => .shrmWi a b v
  | 13 => .rotlWi a b v
  | 14 => .rotrWi a b v
  | 15 => .addcWi a b v
  | 16 => .subcWi a b v
  | 17 => .addmWi a b v
  | 18 => .submWi a b v
  | 19 => .absdiffWi a b v
  | 20 => .mulcWi a b v
  | 21 => .mulmWi a b v
  | 22 => .divWi a b v
  | 23 => .modWi a b v
  | 24 => .powmWi a b v
  | 25 => .powcWi a b v
  | 26 => .gtWi a b v
  | 27 => .geWi a b v
  | 28 => .ltWi a b v
  | 29 => .leWi a b v
  | _ => .invalidSelectorWi s

/-- The instruction of a shape under the reference map. -/
def Instr.ofShape : Shape → Instr
  | .output r => .output r
  | .outputWide r => .outputw r
  | .loadMem r addr => .loadmem r addr
  | .loadMemWide r addr => .loadmemw r addr
  | .storeMem r addr => .storemem r addr
  | .storeMemWide r addr => .storememw r addr
  | .jump addr => .jmp addr
  | .jumpIfOdd r addr => .jmpodd r addr
  | .binOpSmall s a b => .ofBinOpSmall s a b
  | .binOpWide s a b => .ofBinOpWide s a b
  | .binOpImmSmall s a b v => .ofBinOpImmSmall s a b v
  | .binOpImmWide s a b v => .ofBinOpImmWide s a b v
  | .invalidSelector .binOpSmall s => .invalidSelector s
  | .invalidSelector .binOpWide s => .invalidSelectorW s
  | .invalidSelector .binOpImmSmall s => .invalidSelectorI s
  | .invalidSelector .binOpImmWide s => .invalidSelectorWi s

/-- THE DECODER: the instruction at the start of a byte window, or why there is none. -/
def decode (window : List Byte) : Except DecodeError Instr :=
  match decodeShape window with
  | .ok sh => .ok (.ofShape sh)
  | .error e => .error e

/-! ### The encoder -/

/-- The shape of an instruction, its operation written as its selector under the reference map (R69). -/
def Instr.toShape : Instr → Shape
  | .output r => .output r
  | .outputw r => .outputWide r
  | .loadmem r addr => .loadMem r addr
  | .loadmemw r addr => .loadMemWide r addr
  | .storemem r addr => .storeMem r addr
  | .storememw r addr => .storeMemWide r addr
  | .jmp addr => .jump addr
  | .jmpodd r addr => .jumpIfOdd r addr
  | .copy a b => .binOpSmall 0 a b
  | .not a b => .binOpSmall 1 a b
  | .neg a b => .binOpSmall 2 a b
  | .reverse a b => .binOpSmall 3 a b
  | .numones a b => .binOpSmall 4 a b
  | .numzeros a b => .binOpSmall 5 a b
  | .and a b => .binOpSmall 6 a b
  | .or a b => .binOpSmall 7 a b
  | .xor a b => .binOpSmall 8 a b
  | .shl a b => .binOpSmall 9 a b
  | .shr a b => .binOpSmall 10 a b
  | .shlm a b => .binOpSmall 11 a b
  | .shrm a b => .binOpSmall 12 a b
  | .rotl a b => .binOpSmall 13 a b
  | .rotr a b => .binOpSmall 14 a b
  | .addc a b => .binOpSmall 15 a b
  | .subc a b => .binOpSmall 16 a b
  | .addm a b => .binOpSmall 17 a b
  | .subm a b => .binOpSmall 18 a b
  | .absdiff a b => .binOpSmall 19 a b
  | .mulc a b => .binOpSmall 20 a b
  | .mulm a b => .binOpSmall 21 a b
  | .div a b => .binOpSmall 22 a b
  | .mod a b => .binOpSmall 23 a b
  | .powm a b => .binOpSmall 24 a b
  | .powc a b => .binOpSmall 25 a b
  | .gt a b => .binOpSmall 26 a b
  | .ge a b => .binOpSmall 27 a b
  | .lt a b => .binOpSmall 28 a b
  | .le a b => .binOpSmall 29 a b
  | .invalidSelector s => .invalidSelector .binOpSmall s
  | .copyW a b => .binOpWide 0 a b
  | .notW a b => .binOpWide 1 a b
  | .negW a b => .binOpWide 2 a b
  | .reverseW a b => .binOpWide 3 a b
  | .numonesW a b => .binOpWide 4 a b
  | .numzerosW a b => .binOpWide 5 a b
  | .andW a b => .binOpWide 6 a b
  | .orW a b => .binOpWide 7 a b
  | .xorW a b => .binOpWide 8 a b
  | .shlW a b => .binOpWide 9 a b
  | .shrW a b => .binOpWide 10 a b
  | .shlmW a b => .binOpWide 11 a b
  | .shrmW a b => .binOpWide 12 a b
  | .rotlW a b => .binOpWide 13 a b
  | .rotrW a b => .binOpWide 14 a b
  | .addcW a b => .binOpWide 15 a b
  | .subcW a b => .binOpWide 16 a b
  | .addmW a b => .binOpWide 17 a b
  | .submW a b => .binOpWide 18 a b
  | .absdiffW a b => .binOpWide 19 a b
  | .mulcW a b => .binOpWide 20 a b
  | .mulmW a b => .binOpWide 21 a b
  | .divW a b => .binOpWide 22 a b
  | .modW a b => .binOpWide 23 a b
  | .powmW a b => .binOpWide 24 a b
  | .powcW a b => .binOpWide 25 a b
  | .gtW a b => .binOpWide 26 a b
  | .geW a b => .binOpWide 27 a b
  | .ltW a b => .binOpWide 28 a b
  | .leW a b => .binOpWide 29 a b
  | .invalidSelectorW s => .invalidSelector .binOpWide s
  | .copyI a b v => .binOpImmSmall 0 a b v
  | .notI a b v => .binOpImmSmall 1 a b v
  | .negI a b v => .binOpImmSmall 2 a b v
  | .reverseI a b v => .binOpImmSmall 3 a b v
  | .numonesI a b v => .binOpImmSmall 4 a b v
  | .numzerosI a b v => .binOpImmSmall 5 a b v
  | .andI a b v => .binOpImmSmall 6 a b v
  | .orI a b v => .binOpImmSmall 7 a b v
  | .xorI a b v => .binOpImmSmall 8 a b v
  | .shlI a b v => .binOpImmSmall 9 a b v
  | .shrI a b v => .binOpImmSmall 10 a b v
  | .shlmI a b v => .binOpImmSmall 11 a b v
  | .shrmI a b v => .binOpImmSmall 12 a b v
  | .rotlI a b v => .binOpImmSmall 13 a b v
  | .rotrI a b v => .binOpImmSmall 14 a b v
  | .addcI a b v => .binOpImmSmall 15 a b v
  | .subcI a b v => .binOpImmSmall 16 a b v
  | .addmI a b v => .binOpImmSmall 17 a b v
  | .submI a b v => .binOpImmSmall 18 a b v
  | .absdiffI a b v => .binOpImmSmall 19 a b v
  | .mulcI a b v => .binOpImmSmall 20 a b v
  | .mulmI a b v => .binOpImmSmall 21 a b v
  | .divI a b v => .binOpImmSmall 22 a b v
  | .modI a b v => .binOpImmSmall 23 a b v
  | .powmI a b v => .binOpImmSmall 24 a b v
  | .powcI a b v => .binOpImmSmall 25 a b v
  | .gtI a b v => .binOpImmSmall 26 a b v
  | .geI a b v => .binOpImmSmall 27 a b v
  | .ltI a b v => .binOpImmSmall 28 a b v
  | .leI a b v => .binOpImmSmall 29 a b v
  | .invalidSelectorI s => .invalidSelector .binOpImmSmall s
  | .copyWi a b v => .binOpImmWide 0 a b v
  | .notWi a b v => .binOpImmWide 1 a b v
  | .negWi a b v => .binOpImmWide 2 a b v
  | .reverseWi a b v => .binOpImmWide 3 a b v
  | .numonesWi a b v => .binOpImmWide 4 a b v
  | .numzerosWi a b v => .binOpImmWide 5 a b v
  | .andWi a b v => .binOpImmWide 6 a b v
  | .orWi a b v => .binOpImmWide 7 a b v
  | .xorWi a b v => .binOpImmWide 8 a b v
  | .shlWi a b v => .binOpImmWide 9 a b v
  | .shrWi a b v => .binOpImmWide 10 a b v
  | .shlmWi a b v => .binOpImmWide 11 a b v
  | .shrmWi a b v => .binOpImmWide 12 a b v
  | .rotlWi a b v => .binOpImmWide 13 a b v
  | .rotrWi a b v => .binOpImmWide 14 a b v
  | .addcWi a b v => .binOpImmWide 15 a b v
  | .subcWi a b v => .binOpImmWide 16 a b v
  | .addmWi a b v => .binOpImmWide 17 a b v
  | .submWi a b v => .binOpImmWide 18 a b v
  | .absdiffWi a b v => .binOpImmWide 19 a b v
  | .mulcWi a b v => .binOpImmWide 20 a b v
  | .mulmWi a b v => .binOpImmWide 21 a b v
  | .divWi a b v => .binOpImmWide 22 a b v
  | .modWi a b v => .binOpImmWide 23 a b v
  | .powmWi a b v => .binOpImmWide 24 a b v
  | .powcWi a b v => .binOpImmWide 25 a b v
  | .gtWi a b v => .binOpImmWide 26 a b v
  | .geWi a b v => .binOpImmWide 27 a b v
  | .ltWi a b v => .binOpImmWide 28 a b v
  | .leWi a b v => .binOpImmWide 29 a b v
  | .invalidSelectorWi s => .invalidSelector .binOpImmWide s

/-- The opcode byte of a simple class: class in bits 7:4, register in bits 3:0 (R64). -/
def simpleOpcode (cls : BitVec 4) (r : RegIdx) : Byte := cls ++ (BitVec.ofFin r : BitVec 4)

/-- Bits 7:5 of the opcode bytes of an arithmetic class (R63). -/
def ArithClass.code : ArithClass → BitVec 3
  | .binOpSmall => 0b100
  | .binOpWide => 0b101
  | .binOpImmSmall => 0b110
  | .binOpImmWide => 0b111

/-- The opcode byte of an arithmetic class: class in bits 7:5, selector in bits 4:0 (R64). -/
def arithOpcode (c : ArithClass) (s : Selector) : Byte := c.code ++ s

/-- The operand byte of an arithmetic instruction: A in bits 7:4, B in bits 3:0 (R64). -/
def pairByte (a b : RegIdx) : Byte := (BitVec.ofFin a : BitVec 4) ++ (BitVec.ofFin b : BitVec 4)

/-- The bytes of a shape (R64). The don't-care nibble of `jmp` is written 0 (R72, decision D13). An illegal opcode byte
is written alone: no byte after it is ever read (R204). -/
def encodeShape : Shape → List Byte
  | .output r => [simpleOpcode 0b0000 r]
  | .outputWide r => [simpleOpcode 0b0001 r]
  | .loadMem r addr => [simpleOpcode 0b0010 r, lowByte addr, highByte addr]
  | .loadMemWide r addr => [simpleOpcode 0b0011 r, lowByte addr, highByte addr]
  | .storeMem r addr => [simpleOpcode 0b0100 r, lowByte addr, highByte addr]
  | .storeMemWide r addr => [simpleOpcode 0b0101 r, lowByte addr, highByte addr]
  | .jump addr => [simpleOpcode 0b0110 0, lowByte addr, highByte addr]
  | .jumpIfOdd r addr => [simpleOpcode 0b0111 r, lowByte addr, highByte addr]
  | .binOpSmall s a b => [arithOpcode .binOpSmall s, pairByte a b]
  | .binOpWide s a b => [arithOpcode .binOpWide s, pairByte a b]
  | .binOpImmSmall s a b v => [arithOpcode .binOpImmSmall s, pairByte a b, v]
  | .binOpImmWide s a b v => [arithOpcode .binOpImmWide s, pairByte a b, lowByte v, highByte v]
  | .invalidSelector c s => [arithOpcode c s]

/-- THE ENCODER: the bytes of an instruction, first byte at the lowest address (R64, R75). -/
def encode (i : Instr) : List Byte := encodeShape i.toShape

/-- The encoded length in bytes (R62, R63); an illegal opcode byte is decided from that byte alone (R225). -/
def Instr.length (i : Instr) : Nat := (encode i).length

/-! ### The opcode table's numbering of an instruction's bits -/

/-- The four bytes of an instruction whose low `nbits` bits are `w` and whose other bits are 0: bit 0 is the least
significant bit of the first byte, and the second byte is bits 15..8 (R47, R64). -/
def tableBytes (nbits w : Nat) : List Byte :=
  [BitVec.ofNat 8 (w % 2 ^ nbits), BitVec.ofNat 8 (w % 2 ^ nbits / 256),
   BitVec.ofNat 8 (w % 2 ^ nbits / 65536), BitVec.ofNat 8 (w % 2 ^ nbits / 16777216)]

/-- The instruction the decoder reads from an instruction whose bits are `w`, numbered as spec/opcode_table.json
numbers them. -/
def decodeTableWord (nbits w : Nat) : Option Instr :=
  (decode (tableBytes nbits w)).toOption

end Sys2Proof
end

