-- ==== Sys2Proof/Machine/Memory.lean ====
section
/-! DEFINITION. Memory: one flat array of MEM_SIZE bytes shared by fetch and data (20_memory.md R40), held as the list of
the bytes that differ from what an unlisted address reads as, addresses strictly rising. The four primitive accesses
are R41, R43 to R46: each byte address is range-checked and nothing wraps. An access out of range answers the first
byte address found out of range. -/

namespace Sys2Proof.Machine

/-- The listed bytes of memory. -/
abbrev Memory := List Host.Cell

/-- What an unlisted address reads as: every byte outside the image is 0 after reset (R29, R251, decision D3). -/
def Memory.unlisted : Byte := 0

/-- The canonical form: addresses strictly rise and lie in memory, and no listed byte equals `unlisted`. -/
def Memory.wf (m : Memory) : Bool :=
  decide (m.Pairwise (fun c d => c.1 < d.1)) &&
    m.all (fun c => decide (c.1 < Config.memSize) && decide (c.2 ≠ Memory.unlisted))

/-- The byte at an address, with no range check. -/
def Memory.read : Memory → Nat → Byte
  | [], _ => Memory.unlisted
  | c :: rest, a => if c.1 = a then c.2 else Memory.read rest a

/-- Put a cell before a list all of whose addresses are greater, unless it is what an unlisted address reads as. -/
def Memory.cons (a : Nat) (v : Byte) (rest : Memory) : Memory :=
  if v = Memory.unlisted then rest else (a, v) :: rest

/-- Write one byte at an address, with no range check, keeping the canonical form. -/
def Memory.write : Memory → Nat → Byte → Memory
  | [], a, v => Memory.cons a v []
  | c :: rest, a, v =>
    if a < c.1 then Memory.cons a v (c :: rest)
    else if a = c.1 then Memory.cons a v rest
    else c :: Memory.write rest a v

/-- Whether a byte address lies in memory (R43). -/
def inMemory (a : Nat) : Bool := a < Config.memSize

/-- MemRead(addr, 1) (R43). -/
def readByte (m : Memory) (a : Nat) : Except Nat Byte :=
  if inMemory a then .ok (m.read a) else .error a

/-- MemWrite(addr, 1, v) (R44). -/
def writeByte (m : Memory) (a : Nat) (v : Byte) : Except Nat Memory :=
  if inMemory a then .ok (m.write a v) else .error a

/-- MemRead(addr, 2): low byte first; the second byte is at `addr + 1`, never wrapped (R45). -/
def readWord (m : Memory) (a : Nat) : Except Nat Word :=
  if !inMemory a then .error a
  else if !inMemory (a + 1) then .error (a + 1)
  else .ok (joinBytes (m.read a) (m.read (a + 1)))

/-- MemWrite(addr, 2, v): both addresses are checked before either byte is written (R46, decision D6). -/
def writeWord (m : Memory) (a : Nat) (v : Word) : Except Nat Memory :=
  if !inMemory a then .error a
  else if !inMemory (a + 1) then .error (a + 1)
  else .ok ((m.write a (lowByte v)).write (a + 1) (highByte v))

/-- Write a byte sequence at rising addresses, dropping what lies beyond memory: the loader's port (R57). -/
def storeBytes (m : Memory) (a : Nat) : List Byte → Memory
  | [] => m
  | v :: rest => if inMemory a then storeBytes (m.write a v) (a + 1) rest else m

/-- The bytes from an address that memory has, at most `n` of them: what instruction fetch can read (R73). -/
def readBytes (m : Memory) (a : Nat) : Nat → List Byte
  | 0 => []
  | n + 1 => if inMemory a then m.read a :: readBytes m (a + 1) n else []

/-- The longest instruction, in bytes (R60). -/
def maxInstrLength : Nat := 4

/-- The decoder's byte window at an address (R60, R73). -/
def fetchWindow (m : Memory) (pc : Nat) : List Byte := readBytes m pc maxInstrLength

end Sys2Proof.Machine
end

