-- ==== Sys2Proof/Machine/State.lean ====
section
/-! DEFINITION. The complete architectural state of one CORE (10_state.md R20), the reasons a step stops, and the state
after reset (70_reset_and_hazards.md R250, R251). -/

namespace Sys2Proof.Machine

/-- The three fault kinds (60_exceptions.md R220). -/
inductive FaultKind where
  /-- Code 1: selector 30 or 31 (R221). -/
  | invalidOperation
  /-- Code 2: memory or opcode fetch beyond capacity (R222). -/
  | addressOutOfRange
  /-- Code 3: the instruction's bytes run past the end of memory (R223). -/
  | truncatedInstruction
deriving DecidableEq, Repr

/-- What a fault reports (R28). -/
structure FaultRecord where
  /-- Which fault. -/
  kind : FaultKind
  /-- The address of the first byte of the faulting instruction, or the past-end value. -/
  pc : Nat
  /-- The first byte address found out of range; AddressOutOfRange only. -/
  addr : Option Nat
deriving DecidableEq, Repr

/-- The run state (R28). -/
inductive Status where
  | running
  | faulted (r : FaultRecord)
deriving DecidableEq, Repr

/-- One emitted (width, value) pair: width 8 with an 8-bit value, or width 16 with a 16-bit value (R30, R112). -/
inductive Emission where
  | byte (v : Byte)
  | word (v : Word)
deriving DecidableEq, Repr

/-- The state of R20: the small bank S, the wide bank W, the program counter (a natural number up to MEM_SIZE, R26),
memory, the emitted stream (oldest first) and the run state. -/
structure State where
  small : Vector Byte 16
  wide : Vector Word 16
  pc : Nat
  mem : Memory
  out : List Emission
  status : Status
deriving DecidableEq, Repr

/-- Why a step gives no next state. -/
inductive Fault where
  /-- Raised by `step` alone, when status is Faulted: a Faulted core has no step (R90, R227). It carries the record that
  status holds. Safe: the spec says the core is stopped for good. -/
  | noStep (r : FaultRecord)
deriving DecidableEq, Repr

/-- Why the model gives no meaning. -/
inductive Refusal where
  /-- An instruction whose meaning is not written; exec has no such arm. Safe. -/
  | notModelled (mnemonic : String)
  /-- Raised by `create` alone, never by a step: the loader refuses an image longer than memory, given with its length
  (R57, R96, decision D12). Safe: such an image has no run. -/
  | imageTooLong (length : Nat)
deriving DecidableEq, Repr

/-- The machine right after reset, with the empty image (R250, R251): registers 0 (decision D2), pc 0, every memory
byte 0 (decision D3), nothing emitted, Running. -/
def State.reset : State where
  small := Vector.replicate 16 0
  wide := Vector.replicate 16 0
  pc := 0
  mem := []
  out := []
  status := .running

end Sys2Proof.Machine
end

