-- ==== Sys2Proof/Machine/Ops.lean ====
section
/-! DEFINITION. The named operations over registers, the program counter, the output stream and status, and TAKING A
FAULT. There is no return from a fault (60_exceptions.md R227). -/

namespace Sys2Proof.Machine

/-- The outcome of a step or a meaning. -/
abbrev Result := Host.Outcome State Fault Refusal

/-- Read S[i] (R12, R21). -/
def State.readSmall (s : State) (i : RegIdx) : Byte := s.small[i]

/-- Read W[i] (R12, R22). -/
def State.readWide (s : State) (i : RegIdx) : Word := s.wide[i]

/-- Write S[i]; the wide bank is other storage (R12, R21, R23). -/
def State.writeSmall (s : State) (i : RegIdx) (v : Byte) : State :=
  { s with small := s.small.set i v }

/-- Write W[i]; the small bank is other storage (R12, R22, R23). -/
def State.writeWide (s : State) (i : RegIdx) (v : Word) : State :=
  { s with wide := s.wide.set i v }

/-- Advance by an instruction's length, not reduced modulo 65536 (R26, R93, decision D4). -/
def State.advance (s : State) (len : Nat) : State :=
  { s with pc := s.pc + len }

/-- Transfer control to a 16-bit absolute target (R140, R141). -/
def State.jumpTo (s : State) (target : Addr) : State :=
  { s with pc := target.toNat }

/-- Emit(width, v): append one pair to the output stream (R112). -/
def State.emit (s : State) (e : Emission) : State :=
  { s with out := s.out ++ [e] }

/-- Replace memory by what a store made of it. -/
def State.withMem (s : State) (m : Memory) : State :=
  { s with mem := m }

/-- TAKING A FAULT (R226): nothing but status changes; the record holds the kind, the pc of the faulting instruction
(which pc keeps) and, for AddressOutOfRange, the first byte address out of range. -/
def State.raiseFault (s : State) (kind : FaultKind) (addr : Option Nat) : State :=
  { s with status := .faulted ⟨kind, s.pc, addr⟩ }

/-- The numeric code of a fault kind (R28, R220, decision D7). -/
def FaultKind.code : FaultKind → Nat
  | .invalidOperation => 1
  | .addressOutOfRange => 2
  | .truncatedInstruction => 3

/-- The width of an emitted pair (R30, R112). -/
def Emission.width : Emission → Nat
  | .byte _ => 8
  | .word _ => 16

/-- The value of an emitted pair (R30, R112). -/
def Emission.value : Emission → Nat
  | .byte v => v.toNat
  | .word v => v.toNat

/-- Go on with what a memory access answered, or take AddressOutOfRange at the byte address it found out of range (R222
cases (b) and (c)). -/
def State.access (s : State) {α : Type} (answer : Except Nat α) (k : α → State) : Result :=
  match answer with
  | .ok v => .next (k v)
  | .error a => .next (s.raiseFault .addressOutOfRange (some a))

/-- Take the fault of a window that holds no instruction (R73; R222 case (a); R223). -/
def State.raiseDecodeError (s : State) : DecodeError → State
  | .noOpcodeByte => s.raiseFault .addressOutOfRange (some s.pc)
  | .truncated => s.raiseFault .truncatedInstruction none

end Sys2Proof.Machine
end

