-- ==== Sys2Proof/Machine/Flags.lean ====
section
/-! DEFINITION. The CORE has no flags, condition codes or predicate registers, and no instruction leaves a trace of
overflow, saturation, division by zero or an oversize shift (10_state.md R27). What another machine would hold in
flags is here two computations of a result: a comparison's truth value as a register value, and the two treatments of
a result beyond the width (44_alu.md R184). -/

namespace Sys2Proof.Machine

/-- A comparison's result, 1 if true else 0, in the result width (R178). -/
def truthValue {n : Nat} (b : Bool) : BitVec n := if b then 1 else 0

/-- MAX(w) = 2 ^ BITS(w) − 1 (R11). -/
def maxOf (n : Nat) : Nat := 2 ^ n - 1

/-- Clamp an exact result to 0..MAX, the treatment of the operations named `...c` (R14, R184). -/
def saturate (n : Nat) (v : Nat) : BitVec n := BitVec.ofNat n (min v (maxOf n))

/-- Reduce an exact result modulo MAX + 1, the treatment of the operations named `...m` (R11, R14, R184). -/
def wrap (n : Nat) (v : Nat) : BitVec n := BitVec.ofNat n v

end Sys2Proof.Machine
end

