-- ==== Sys2Proof/Machine/Alu.lean ====
section
/-! DEFINITION. The ALU (44_alu.md): a pure function of an operation, a width and two inputs, with no flag and no
exception (R150). Each operation is one definition at any number of bits `n`; the two widths use n = 8 and n = 16.
`numones`, whose formula differs between the widths, is at the end. -/

namespace Sys2Proof.Machine

/-- R152. -/
def aluCopy {n : Nat} (_a b : BitVec n) : BitVec n := b

/-- R153: b ^ MAX. -/
def aluNot {n : Nat} (_a b : BitVec n) : BitVec n := b ^^^ BitVec.allOnes n

/-- R154: MAX − b; the same function as `not` (90_conflicts.md C7). -/
def aluNeg {n : Nat} (_a b : BitVec n) : BitVec n := BitVec.allOnes n - b

/-- The low `k` bits of `b` in reversed order: bit 0 becomes bit k − 1. -/
def reverseLow {n : Nat} (b : BitVec n) : Nat → Nat
  | 0 => 0
  | k + 1 => 2 * reverseLow b k + (b.getLsbD k).toNat

/-- R155: the bit order reversed across the full width. -/
def aluReverse {n : Nat} (_a b : BitVec n) : BitVec n := BitVec.ofNat n (reverseLow b n)

/-- The number of set bits among the low `k` bits of `b`. -/
def popcountLow {n : Nat} (b : BitVec n) : Nat → Nat
  | 0 => 0
  | k + 1 => popcountLow b k + (b.getLsbD k).toNat

/-- R157: the number of set bits of b; the name is a label only (90_conflicts.md C6). -/
def aluNumzeros {n : Nat} (_a b : BitVec n) : BitVec n := BitVec.ofNat n (popcountLow b n)

/-- R158. -/
def aluAnd {n : Nat} (a b : BitVec n) : BitVec n := a &&& b

/-- R159. -/
def aluOr {n : Nat} (a b : BitVec n) : BitVec n := a ||| b

/-- R160. -/
def aluXor {n : Nat} (a b : BitVec n) : BitVec n := a ^^^ b

/-- R161: 0 from b = BITS on. -/
def aluShl {n : Nat} (a b : BitVec n) : BitVec n := if n ≤ b.toNat then 0 else a <<< b.toNat

/-- R162: 0 from b = BITS on. -/
def aluShr {n : Nat} (a b : BitVec n) : BitVec n := if n ≤ b.toNat then 0 else a >>> b.toNat

/-- R163: by b mod BITS. -/
def aluShlm {n : Nat} (a b : BitVec n) : BitVec n := a <<< (b.toNat % n)

/-- R164: by b mod BITS. -/
def aluShrm {n : Nat} (a b : BitVec n) : BitVec n := a >>> (b.toNat % n)

/-- R165: left by k = b mod BITS, the bits leaving at the top re-entering at bit 0. For k = 0 the second part is 0. -/
def aluRotl {n : Nat} (a b : BitVec n) : BitVec n :=
  a <<< (b.toNat % n) ||| a >>> (n - b.toNat % n)

/-- R166: right by k = b mod BITS, the bits leaving at bit 0 re-entering at the top. For k = 0 the second part is 0. -/
def aluRotr {n : Nat} (a b : BitVec n) : BitVec n :=
  a >>> (b.toNat % n) ||| a <<< (n - b.toNat % n)

/-- R167. -/
def aluAddc {n : Nat} (a b : BitVec n) : BitVec n := saturate n (a.toNat + b.toNat)

/-- R168: a − b, or 0 when b is greater; natural subtraction stops at 0. -/
def aluSubc {n : Nat} (a b : BitVec n) : BitVec n := saturate n (a.toNat - b.toNat)

/-- R169. -/
def aluAddm {n : Nat} (a b : BitVec n) : BitVec n := a + b

/-- R170. -/
def aluSubm {n : Nat} (a b : BitVec n) : BitVec n := a - b

/-- R171. -/
def aluAbsdiff {n : Nat} (a b : BitVec n) : BitVec n := if a ≤ b then b - a else a - b

/-- R172. -/
def aluMulc {n : Nat} (a b : BitVec n) : BitVec n := saturate n (a.toNat * b.toNat)

/-- R173. -/
def aluMulm {n : Nat} (a b : BitVec n) : BitVec n := wrap n (a.toNat * b.toNat)

/-- The divisor of `div` and `mod`: max(b, 1), so division by zero never occurs (R174, R175). -/
def divisor {n : Nat} (b : BitVec n) : Nat := max b.toNat 1

/-- R174: the floor quotient by max(b, 1). -/
def aluDiv {n : Nat} (a b : BitVec n) : BitVec n := BitVec.ofNat n (a.toNat / divisor b)

/-- R175: the remainder by max(b, 1). -/
def aluMod {n : Nat} (a b : BitVec n) : BitVec n := BitVec.ofNat n (a.toNat % divisor b)

/-- Square and multiply: `b` multiplied into 1 as often as the low `k` bits of `e` say, most significant first, each
product narrowed by `narrow`. -/
def powerBy (narrow : Nat → Nat) (b : Nat) (e : Nat) : Nat → Nat
  | 0 => 1
  | k + 1 =>
    let half := powerBy narrow b (e / 2) k
    let square := narrow (half * half)
    if e % 2 = 1 then narrow (square * b) else square

/-- R176: a to the power b, reduced modulo MAX + 1, by repeated squaring; a to the 0 is 1, of 0 too (decision D10). -/
def aluPowm {n : Nat} (a b : BitVec n) : BitVec n :=
  BitVec.ofNat n (powerBy (· % 2 ^ n) a.toNat b.toNat n)

/-- R177: a to the power b, saturated to MAX, by repeated squaring with every product clamped; a to the 0 is 1, of 0
too (decision D10). -/
def aluPowc {n : Nat} (a b : BitVec n) : BitVec n :=
  BitVec.ofNat n (powerBy (min · (maxOf n)) a.toNat b.toNat n)

/-- R178, unsigned (R185). -/
def aluGt {n : Nat} (a b : BitVec n) : BitVec n := truthValue (b.ult a)

/-- R179. -/
def aluGe {n : Nat} (a b : BitVec n) : BitVec n := truthValue (b.ule a)

/-- R180. -/
def aluLt {n : Nat} (a b : BitVec n) : BitVec n := truthValue (a.ult b)

/-- R181. -/
def aluLe {n : Nat} (a b : BitVec n) : BitVec n := truthValue (a.ule b)

/-- R182. -/
def aluEq {n : Nat} (a b : BitVec n) : BitVec n := truthValue (a == b)

/-- R183. -/
def aluNe {n : Nat} (a b : BitVec n) : BitVec n := truthValue (a != b)

/-- R156: the bytes of b reversed. One byte reversed is itself, so at the small width this is the identity; the name is a
label only (90_conflicts.md C6). -/
def aluNumones : (w : Width) → BitVec w.bits → BitVec w.bits → BitVec w.bits
  | .small, _, b => b
  | .wide, _, b => joinBytes (highByte b) (lowByte b)

/-- `apply(op, w, a, b)` (R150, R151). -/
def alu (op : AluOp) (w : Width) (a b : BitVec w.bits) : BitVec w.bits :=
  match op with
  | .copy => aluCopy a b
  | .not => aluNot a b
  | .neg => aluNeg a b
  | .reverse => aluReverse a b
  | .numones => aluNumones w a b
  | .numzeros => aluNumzeros a b
  | .and => aluAnd a b
  | .or => aluOr a b
  | .xor => aluXor a b
  | .shl => aluShl a b
  | .shr => aluShr a b
  | .shlm => aluShlm a b
  | .shrm => aluShrm a b
  | .rotl => aluRotl a b
  | .rotr => aluRotr a b
  | .addc => aluAddc a b
  | .subc => aluSubc a b
  | .addm => aluAddm a b
  | .subm => aluSubm a b
  | .absdiff => aluAbsdiff a b
  | .mulc => aluMulc a b
  | .mulm => aluMulm a b
  | .div => aluDiv a b
  | .mod => aluMod a b
  | .powm => aluPowm a b
  | .powc => aluPowc a b
  | .gt => aluGt a b
  | .ge => aluGe a b
  | .lt => aluLt a b
  | .le => aluLe a b
  | .eq => aluEq a b
  | .ne => aluNe a b

end Sys2Proof.Machine
end

