-- ==== Sys2Proof/Machine/Operands.lean ====
section
/-! DEFINITION. The operand forms of the instructions (30_encoding.md R62 to R67): a register of either bank, an
absolute address (42_load_store.md R124), a literal; and how each arithmetic class feeds the ALU's two inputs `a`
and `b` (45_arith_instructions.md). The asymmetry of the immediate forms is deliberate: the register of the LOW nibble
is the first input and the literal the second (R202, 90_conflicts.md C2). -/

namespace Sys2Proof.Machine

/-- The effective address of an absolute address field: EA = ADDR, no register takes part (R124). -/
def effectiveAddress (addr : Addr) : Nat := addr.toNat

/-- The ALU's inputs in `OP rA, rB`: S[A] and S[B] (R200). -/
def inputsSmall (s : State) (a b : RegIdx) : Byte × Byte := (s.readSmall a, s.readSmall b)

/-- The ALU's inputs in `OP.w wA, wB`: W[A] and W[B] (R201). -/
def inputsWide (s : State) (a b : RegIdx) : Word × Word := (s.readWide a, s.readWide b)

/-- The ALU's inputs in `OP.i rA, rB, V`: S[B] and V (R202). -/
def inputsImmSmall (s : State) (b : RegIdx) (v : Byte) : Byte × Byte := (s.readSmall b, v)

/-- The ALU's inputs in `OP.wi wA, wB, V`: W[B] and V (R203). -/
def inputsImmWide (s : State) (b : RegIdx) (v : Word) : Word × Word := (s.readWide b, v)

end Sys2Proof.Machine
end

