-- ==== Sys2Proof/Machine/Arith.lean ====
section
/-! DEFINITION. What the four arithmetic classes share (45_arith_instructions.md): each feeds the ALU, writes exactly one
register, the destination of the HIGH nibble, and advances pc by its length (R205); and the meaning of an unassigned
selector (R204). -/

namespace Sys2Proof.Machine

/-- `OP rA, rB`: S[A] <- apply(op, small, S[A], S[B]), length 2 (R200). -/
def binOpSmall (op : AluOp) (a b : RegIdx) (s : State) : Result :=
  let inputs := inputsSmall s a b
  .next ((s.writeSmall a (alu op .small inputs.1 inputs.2)).advance 2)

/-- `OP.w wA, wB`: W[A] <- apply(op, wide, W[A], W[B]), length 2 (R201). -/
def binOpWide (op : AluOp) (a b : RegIdx) (s : State) : Result :=
  let inputs := inputsWide s a b
  .next ((s.writeWide a (alu op .wide inputs.1 inputs.2)).advance 2)

/-- `OP.i rA, rB, V`: S[A] <- apply(op, small, S[B], V), length 3 (R202). -/
def binOpImmSmall (op : AluOp) (a b : RegIdx) (v : Byte) (s : State) : Result :=
  let inputs := inputsImmSmall s b v
  .next ((s.writeSmall a (alu op .small inputs.1 inputs.2)).advance 3)

/-- `OP.wi wA, wB, V`: W[A] <- apply(op, wide, W[B], V), length 4 (R203). -/
def binOpImmWide (op : AluOp) (a b : RegIdx) (v : Word) (s : State) : Result :=
  let inputs := inputsImmWide s b v
  .next ((s.writeWide a (alu op .wide inputs.1 inputs.2)).advance 4)

/-- An opcode byte with an unassigned selector takes InvalidOperation, mutating no register and no memory (R204,
R221). -/
def takeInvalidOperation (s : State) : Result :=
  .next (s.raiseFault .invalidOperation none)

end Sys2Proof.Machine
end

