-- ==== Sys2Proof/Machine/BinOpImmSmall.lean ====
section
/-! DEFINITION. The thirty instructions `OP.i rA, rB, V` (R202), opcode bytes 0xC0 to 0xDD under the reference
ALU_SELECTOR_MAP (R69), and the illegal opcode bytes 0xDE and 0xDF of the class (R221). -/

namespace Sys2Proof.Machine

/-- `copy.i` (R202, R152). -/
def execCopyI (a b : RegIdx) (v : Byte) (s : State) : Result :=
  binOpImmSmall .copy a b v s

/-- `not.i` (R202, R153). -/
def execNotI (a b : RegIdx) (v : Byte) (s : State) : Result :=
  binOpImmSmall .not a b v s

/-- `neg.i` (R202, R154). -/
def execNegI (a b : RegIdx) (v : Byte) (s : State) : Result :=
  binOpImmSmall .neg a b v s

/-- `reverse.i` (R202, R155). -/
def execReverseI (a b : RegIdx) (v : Byte) (s : State) : Result :=
  binOpImmSmall .reverse a b v s

/-- `numones.i` (R202, R156). -/
def execNumonesI (a b : RegIdx) (v : Byte) (s : State) : Result :=
  binOpImmSmall .numones a b v s

/-- `numzeros.i` (R202, R157). -/
def execNumzerosI (a b : RegIdx) (v : Byte) (s : State) : Result :=
  binOpImmSmall .numzeros a b v s

/-- `and.i` (R202, R158). -/
def execAndI (a b : RegIdx) (v : Byte) (s : State) : Result :=
  binOpImmSmall .and a b v s

/-- `or.i` (R202, R159). -/
def execOrI (a b : RegIdx) (v : Byte) (s : State) : Result :=
  binOpImmSmall .or a b v s

/-- `xor.i` (R202, R160). -/
def execXorI (a b : RegIdx) (v : Byte) (s : State) : Result :=
  binOpImmSmall .xor a b v s

/-- `shl.i` (R202, R161). -/
def execShlI (a b : RegIdx) (v : Byte) (s : State) : Result :=
  binOpImmSmall .shl a b v s

/-- `shr.i` (R202, R162). -/
def execShrI (a b : RegIdx) (v : Byte) (s : State) : Result :=
  binOpImmSmall .shr a b v s

/-- `shlm.i` (R202, R163). -/
def execShlmI (a b : RegIdx) (v : Byte) (s : State) : Result :=
  binOpImmSmall .shlm a b v s

/-- `shrm.i` (R202, R164). -/
def execShrmI (a b : RegIdx) (v : Byte) (s : State) : Result :=
  binOpImmSmall .shrm a b v s

/-- `rotl.i` (R202, R165). -/
def execRotlI (a b : RegIdx) (v : Byte) (s : State) : Result :=
  binOpImmSmall .rotl a b v s

/-- `rotr.i` (R202, R166). -/
def execRotrI (a b : RegIdx) (v : Byte) (s : State) : Result :=
  binOpImmSmall .rotr a b v s

/-- `addc.i` (R202, R167). -/
def execAddcI (a b : RegIdx) (v : Byte) (s : State) : Result :=
  binOpImmSmall .addc a b v s

/-- `subc.i` (R202, R168). -/
def execSubcI (a b : RegIdx) (v : Byte) (s : State) : Result :=
  binOpImmSmall .subc a b v s

/-- `addm.i` (R202, R169). -/
def execAddmI (a b : RegIdx) (v : Byte) (s : State) : Result :=
  binOpImmSmall .addm a b v s

/-- `subm.i` (R202, R170). -/
def execSubmI (a b : RegIdx) (v : Byte) (s : State) : Result :=
  binOpImmSmall .subm a b v s

/-- `absdiff.i` (R202, R171). -/
def execAbsdiffI (a b : RegIdx) (v : Byte) (s : State) : Result :=
  binOpImmSmall .absdiff a b v s

/-- `mulc.i` (R202, R172). -/
def execMulcI (a b : RegIdx) (v : Byte) (s : State) : Result :=
  binOpImmSmall .mulc a b v s

/-- `mulm.i` (R202, R173). -/
def execMulmI (a b : RegIdx) (v : Byte) (s : State) : Result :=
  binOpImmSmall .mulm a b v s

/-- `div.i` (R202, R174). -/
def execDivI (a b : RegIdx) (v : Byte) (s : State) : Result :=
  binOpImmSmall .div a b v s

/-- `mod.i` (R202, R175). -/
def execModI (a b : RegIdx) (v : Byte) (s : State) : Result :=
  binOpImmSmall .mod a b v s

/-- `powm.i` (R202, R176). -/
def execPowmI (a b : RegIdx) (v : Byte) (s : State) : Result :=
  binOpImmSmall .powm a b v s

/-- `powc.i` (R202, R177). -/
def execPowcI (a b : RegIdx) (v : Byte) (s : State) : Result :=
  binOpImmSmall .powc a b v s

/-- `gt.i` (R202, R178). -/
def execGtI (a b : RegIdx) (v : Byte) (s : State) : Result :=
  binOpImmSmall .gt a b v s

/-- `ge.i` (R202, R179). -/
def execGeI (a b : RegIdx) (v : Byte) (s : State) : Result :=
  binOpImmSmall .ge a b v s

/-- `lt.i` (R202, R180). -/
def execLtI (a b : RegIdx) (v : Byte) (s : State) : Result :=
  binOpImmSmall .lt a b v s

/-- `le.i` (R202, R181). -/
def execLeI (a b : RegIdx) (v : Byte) (s : State) : Result :=
  binOpImmSmall .le a b v s

/-- Selector 30 or 31 of the class (R204, R221). -/
def execInvalidSelectorI (_sel : Selector) (s : State) : Result :=
  takeInvalidOperation s

end Sys2Proof.Machine
end

