-- ==== Sys2Proof/Machine/BinOpImmWide.lean ====
section
/-! DEFINITION. The thirty instructions `OP.wi wA, wB, V` (R203), opcode bytes 0xE0 to 0xFD under the reference
ALU_SELECTOR_MAP (R69), and the illegal opcode bytes 0xFE and 0xFF of the class (R221). -/

namespace Sys2Proof.Machine

/-- `copy.wi` (R203, R152). -/
def execCopyWi (a b : RegIdx) (v : Word) (s : State) : Result :=
  binOpImmWide .copy a b v s

/-- `not.wi` (R203, R153). -/
def execNotWi (a b : RegIdx) (v : Word) (s : State) : Result :=
  binOpImmWide .not a b v s

/-- `neg.wi` (R203, R154). -/
def execNegWi (a b : RegIdx) (v : Word) (s : State) : Result :=
  binOpImmWide .neg a b v s

/-- `reverse.wi` (R203, R155). -/
def execReverseWi (a b : RegIdx) (v : Word) (s : State) : Result :=
  binOpImmWide .reverse a b v s

/-- `numones.wi` (R203, R156). -/
def execNumonesWi (a b : RegIdx) (v : Word) (s : State) : Result :=
  binOpImmWide .numones a b v s

/-- `numzeros.wi` (R203, R157). -/
def execNumzerosWi (a b : RegIdx) (v : Word) (s : State) : Result :=
  binOpImmWide .numzeros a b v s

/-- `and.wi` (R203, R158). -/
def execAndWi (a b : RegIdx) (v : Word) (s : State) : Result :=
  binOpImmWide .and a b v s

/-- `or.wi` (R203, R159). -/
def execOrWi (a b : RegIdx) (v : Word) (s : State) : Result :=
  binOpImmWide .or a b v s

/-- `xor.wi` (R203, R160). -/
def execXorWi (a b : RegIdx) (v : Word) (s : State) : Result :=
  binOpImmWide .xor a b v s

/-- `shl.wi` (R203, R161). -/
def execShlWi (a b : RegIdx) (v : Word) (s : State) : Result :=
  binOpImmWide .shl a b v s

/-- `shr.wi` (R203, R162). -/
def execShrWi (a b : RegIdx) (v : Word) (s : State) : Result :=
  binOpImmWide .shr a b v s

/-- `shlm.wi` (R203, R163). -/
def execShlmWi (a b : RegIdx) (v : Word) (s : State) : Result :=
  binOpImmWide .shlm a b v s

/-- `shrm.wi` (R203, R164). -/
def execShrmWi (a b : RegIdx) (v : Word) (s : State) : Result :=
  binOpImmWide .shrm a b v s

/-- `rotl.wi` (R203, R165). -/
def execRotlWi (a b : RegIdx) (v : Word) (s : State) : Result :=
  binOpImmWide .rotl a b v s

/-- `rotr.wi` (R203, R166). -/
def execRotrWi (a b : RegIdx) (v : Word) (s : State) : Result :=
  binOpImmWide .rotr a b v s

/-- `addc.wi` (R203, R167). -/
def execAddcWi (a b : RegIdx) (v : Word) (s : State) : Result :=
  binOpImmWide .addc a b v s

/-- `subc.wi` (R203, R168). -/
def execSubcWi (a b : RegIdx) (v : Word) (s : State) : Result :=
  binOpImmWide .subc a b v s

/-- `addm.wi` (R203, R169). -/
def execAddmWi (a b : RegIdx) (v : Word) (s : State) : Result :=
  binOpImmWide .addm a b v s

/-- `subm.wi` (R203, R170). -/
def execSubmWi (a b : RegIdx) (v : Word) (s : State) : Result :=
  binOpImmWide .subm a b v s

/-- `absdiff.wi` (R203, R171). -/
def execAbsdiffWi (a b : RegIdx) (v : Word) (s : State) : Result :=
  binOpImmWide .absdiff a b v s

/-- `mulc.wi` (R203, R172). -/
def execMulcWi (a b : RegIdx) (v : Word) (s : State) : Result :=
  binOpImmWide .mulc a b v s

/-- `mulm.wi` (R203, R173). -/
def execMulmWi (a b : RegIdx) (v : Word) (s : State) : Result :=
  binOpImmWide .mulm a b v s

/-- `div.wi` (R203, R174). -/
def execDivWi (a b : RegIdx) (v : Word) (s : State) : Result :=
  binOpImmWide .div a b v s

/-- `mod.wi` (R203, R175). -/
def execModWi (a b : RegIdx) (v : Word) (s : State) : Result :=
  binOpImmWide .mod a b v s

/-- `powm.wi` (R203, R176). -/
def execPowmWi (a b : RegIdx) (v : Word) (s : State) : Result :=
  binOpImmWide .powm a b v s

/-- `powc.wi` (R203, R177). -/
def execPowcWi (a b : RegIdx) (v : Word) (s : State) : Result :=
  binOpImmWide .powc a b v s

/-- `gt.wi` (R203, R178). -/
def execGtWi (a b : RegIdx) (v : Word) (s : State) : Result :=
  binOpImmWide .gt a b v s

/-- `ge.wi` (R203, R179). -/
def execGeWi (a b : RegIdx) (v : Word) (s : State) : Result :=
  binOpImmWide .ge a b v s

/-- `lt.wi` (R203, R180). -/
def execLtWi (a b : RegIdx) (v : Word) (s : State) : Result :=
  binOpImmWide .lt a b v s

/-- `le.wi` (R203, R181). -/
def execLeWi (a b : RegIdx) (v : Word) (s : State) : Result :=
  binOpImmWide .le a b v s

/-- Selector 30 or 31 of the class (R204, R221). -/
def execInvalidSelectorWi (_sel : Selector) (s : State) : Result :=
  takeInvalidOperation s

end Sys2Proof.Machine
end

