-- ==== Sys2Proof/Machine/BinOpSmall.lean ====
section
/-! DEFINITION. The thirty instructions `OP rA, rB` (R200), opcode bytes 0x80 to 0x9D under the reference
ALU_SELECTOR_MAP (R69), and the illegal opcode bytes 0x9E and 0x9F of the class (R221). -/

namespace Sys2Proof.Machine

/-- `copy` (R200, R152). -/
def execCopy (a b : RegIdx) (s : State) : Result :=
  binOpSmall .copy a b s

/-- `not` (R200, R153). -/
def execNot (a b : RegIdx) (s : State) : Result :=
  binOpSmall .not a b s

/-- `neg` (R200, R154). -/
def execNeg (a b : RegIdx) (s : State) : Result :=
  binOpSmall .neg a b s

/-- `reverse` (R200, R155). -/
def execReverse (a b : RegIdx) (s : State) : Result :=
  binOpSmall .reverse a b s

/-- `numones` (R200, R156). -/
def execNumones (a b : RegIdx) (s : State) : Result :=
  binOpSmall .numones a b s

/-- `numzeros` (R200, R157). -/
def execNumzeros (a b : RegIdx) (s : State) : Result :=
  binOpSmall .numzeros a b s

/-- `and` (R200, R158). -/
def execAnd (a b : RegIdx) (s : State) : Result :=
  binOpSmall .and a b s

/-- `or` (R200, R159). -/
def execOr (a b : RegIdx) (s : State) : Result :=
  binOpSmall .or a b s

/-- `xor` (R200, R160). -/
def execXor (a b : RegIdx) (s : State) : Result :=
  binOpSmall .xor a b s

/-- `shl` (R200, R161). -/
def execShl (a b : RegIdx) (s : State) : Result :=
  binOpSmall .shl a b s

/-- `shr` (R200, R162). -/
def execShr (a b : RegIdx) (s : State) : Result :=
  binOpSmall .shr a b s

/-- `shlm` (R200, R163). -/
def execShlm (a b : RegIdx) (s : State) : Result :=
  binOpSmall .shlm a b s

/-- `shrm` (R200, R164). -/
def execShrm (a b : RegIdx) (s : State) : Result :=
  binOpSmall .shrm a b s

/-- `rotl` (R200, R165). -/
def execRotl (a b : RegIdx) (s : State) : Result :=
  binOpSmall .rotl a b s

/-- `rotr` (R200, R166). -/
def execRotr (a b : RegIdx) (s : State) : Result :=
  binOpSmall .rotr a b s

/-- `addc` (R200, R167). -/
def execAddc (a b : RegIdx) (s : State) : Result :=
  binOpSmall .addc a b s

/-- `subc` (R200, R168). -/
def execSubc (a b : RegIdx) (s : State) : Result :=
  binOpSmall .subc a b s

/-- `addm` (R200, R169). -/
def execAddm (a b : RegIdx) (s : State) : Result :=
  binOpSmall .addm a b s

/-- `subm` (R200, R170). -/
def execSubm (a b : RegIdx) (s : State) : Result :=
  binOpSmall .subm a b s

/-- `absdiff` (R200, R171). -/
def execAbsdiff (a b : RegIdx) (s : State) : Result :=
  binOpSmall .absdiff a b s

/-- `mulc` (R200, R172). -/
def execMulc (a b : RegIdx) (s : State) : Result :=
  binOpSmall .mulc a b s

/-- `mulm` (R200, R173). -/
def execMulm (a b : RegIdx) (s : State) : Result :=
  binOpSmall .mulm a b s

/-- `div` (R200, R174). -/
def execDiv (a b : RegIdx) (s : State) : Result :=
  binOpSmall .div a b s

/-- `mod` (R200, R175). -/
def execMod (a b : RegIdx) (s : State) : Result :=
  binOpSmall .mod a b s

/-- `powm` (R200, R176). -/
def execPowm (a b : RegIdx) (s : State) : Result :=
  binOpSmall .powm a b s

/-- `powc` (R200, R177). -/
def execPowc (a b : RegIdx) (s : State) : Result :=
  binOpSmall .powc a b s

/-- `gt` (R200, R178). -/
def execGt (a b : RegIdx) (s : State) : Result :=
  binOpSmall .gt a b s

/-- `ge` (R200, R179). -/
def execGe (a b : RegIdx) (s : State) : Result :=
  binOpSmall .ge a b s

/-- `lt` (R200, R180). -/
def execLt (a b : RegIdx) (s : State) : Result :=
  binOpSmall .lt a b s

/-- `le` (R200, R181). -/
def execLe (a b : RegIdx) (s : State) : Result :=
  binOpSmall .le a b s

/-- Selector 30 or 31 of the class (R204, R221). -/
def execInvalidSelector (_sel : Selector) (s : State) : Result :=
  takeInvalidOperation s

end Sys2Proof.Machine
end

