-- ==== Sys2Proof/Machine/BinOpWide.lean ====
section
/-! DEFINITION. The thirty instructions `OP.w wA, wB` (R201), opcode bytes 0xA0 to 0xBD under the reference
ALU_SELECTOR_MAP (R69), and the illegal opcode bytes 0xBE and 0xBF of the class (R221). -/

namespace Sys2Proof.Machine

/-- `copy.w` (R201, R152). -/
def execCopyW (a b : RegIdx) (s : State) : Result :=
  binOpWide .copy a b s

/-- `not.w` (R201, R153). -/
def execNotW (a b : RegIdx) (s : State) : Result :=
  binOpWide .not a b s

/-- `neg.w` (R201, R154). -/
def execNegW (a b : RegIdx) (s : State) : Result :=
  binOpWide .neg a b s

/-- `reverse.w` (R201, R155). -/
def execReverseW (a b : RegIdx) (s : State) : Result :=
  binOpWide .reverse a b s

/-- `numones.w` (R201, R156). -/
def execNumonesW (a b : RegIdx) (s : State) : Result :=
  binOpWide .numones a b s

/-- `numzeros.w` (R201, R157). -/
def execNumzerosW (a b : RegIdx) (s : State) : Result :=
  binOpWide .numzeros a b s

/-- `and.w` (R201, R158). -/
def execAndW (a b : RegIdx) (s : State) : Result :=
  binOpWide .and a b s

/-- `or.w` (R201, R159). -/
def execOrW (a b : RegIdx) (s : State) : Result :=
  binOpWide .or a b s

/-- `xor.w` (R201, R160). -/
def execXorW (a b : RegIdx) (s : State) : Result :=
  binOpWide .xor a b s

/-- `shl.w` (R201, R161). -/
def execShlW (a b : RegIdx) (s : State) : Result :=
  binOpWide .shl a b s

/-- `shr.w` (R201, R162). -/
def execShrW (a b : RegIdx) (s : State) : Result :=
  binOpWide .shr a b s

/-- `shlm.w` (R201, R163). -/
def execShlmW (a b : RegIdx) (s : State) : Result :=
  binOpWide .shlm a b s

/-- `shrm.w` (R201, R164). -/
def execShrmW (a b : RegIdx) (s : State) : Result :=
  binOpWide .shrm a b s

/-- `rotl.w` (R201, R165). -/
def execRotlW (a b : RegIdx) (s : State) : Result :=
  binOpWide .rotl a b s

/-- `rotr.w` (R201, R166). -/
def execRotrW (a b : RegIdx) (s : State) : Result :=
  binOpWide .rotr a b s

/-- `addc.w` (R201, R167). -/
def execAddcW (a b : RegIdx) (s : State) : Result :=
  binOpWide .addc a b s

/-- `subc.w` (R201, R168). -/
def execSubcW (a b : RegIdx) (s : State) : Result :=
  binOpWide .subc a b s

/-- `addm.w` (R201, R169). -/
def execAddmW (a b : RegIdx) (s : State) : Result :=
  binOpWide .addm a b s

/-- `subm.w` (R201, R170). -/
def execSubmW (a b : RegIdx) (s : State) : Result :=
  binOpWide .subm a b s

/-- `absdiff.w` (R201, R171). -/
def execAbsdiffW (a b : RegIdx) (s : State) : Result :=
  binOpWide .absdiff a b s

/-- `mulc.w` (R201, R172). -/
def execMulcW (a b : RegIdx) (s : State) : Result :=
  binOpWide .mulc a b s

/-- `mulm.w` (R201, R173). -/
def execMulmW (a b : RegIdx) (s : State) : Result :=
  binOpWide .mulm a b s

/-- `div.w` (R201, R174). -/
def execDivW (a b : RegIdx) (s : State) : Result :=
  binOpWide .div a b s

/-- `mod.w` (R201, R175). -/
def execModW (a b : RegIdx) (s : State) : Result :=
  binOpWide .mod a b s

/-- `powm.w` (R201, R176). -/
def execPowmW (a b : RegIdx) (s : State) : Result :=
  binOpWide .powm a b s

/-- `powc.w` (R201, R177). -/
def execPowcW (a b : RegIdx) (s : State) : Result :=
  binOpWide .powc a b s

/-- `gt.w` (R201, R178). -/
def execGtW (a b : RegIdx) (s : State) : Result :=
  binOpWide .gt a b s

/-- `ge.w` (R201, R179). -/
def execGeW (a b : RegIdx) (s : State) : Result :=
  binOpWide .ge a b s

/-- `lt.w` (R201, R180). -/
def execLtW (a b : RegIdx) (s : State) : Result :=
  binOpWide .lt a b s

/-- `le.w` (R201, R181). -/
def execLeW (a b : RegIdx) (s : State) : Result :=
  binOpWide .le a b s

/-- Selector 30 or 31 of the class (R204, R221). -/
def execInvalidSelectorW (_sel : Selector) (s : State) : Result :=
  takeInvalidOperation s

end Sys2Proof.Machine
end

