-- ==== Sys2Proof/Machine/Branch.lean ====
section
/-! DEFINITION. The branch instructions (43_branch.md). -/

namespace Sys2Proof.Machine

/-- `jmp ADDR` (R140). -/
def execJmp (addr : Addr) (s : State) : Result :=
  .next (s.jumpTo addr)

/-- `jmpodd rN, ADDR` (R141): taken when bit 0 of S[N] is 1, else pc advances by 3. -/
def execJmpodd (r : RegIdx) (addr : Addr) (s : State) : Result :=
  if (s.readSmall r).getLsbD 0 then .next (s.jumpTo addr) else .next (s.advance 3)

end Sys2Proof.Machine
end

