-- ==== Sys2Proof/Machine/LoadStore.lean ====
section
/-! DEFINITION. The load and store instructions (42_load_store.md). A faulting access changes no register, no memory
byte and not the pc (R226). -/

namespace Sys2Proof.Machine

/-- `loadmem rN <- ADDR` (R120). -/
def execLoadmem (r : RegIdx) (addr : Addr) (s : State) : Result :=
  s.access (readByte s.mem (effectiveAddress addr)) fun v => (s.writeSmall r v).advance 3

/-- `loadmemw wN <- ADDR` (R121): AddressOutOfRange at ADDR = 0xFFFF. -/
def execLoadmemw (r : RegIdx) (addr : Addr) (s : State) : Result :=
  s.access (readWord s.mem (effectiveAddress addr)) fun v => (s.writeWide r v).advance 3

/-- `storemem ADDR <- rN` (R122). -/
def execStoremem (r : RegIdx) (addr : Addr) (s : State) : Result :=
  s.access (writeByte s.mem (effectiveAddress addr) (s.readSmall r)) fun m => (s.withMem m).advance 3

/-- `storememw ADDR <- wN` (R123): AddressOutOfRange at ADDR = 0xFFFF, writing neither byte. -/
def execStorememw (r : RegIdx) (addr : Addr) (s : State) : Result :=
  s.access (writeWord s.mem (effectiveAddress addr) (s.readWide r)) fun m => (s.withMem m).advance 3

end Sys2Proof.Machine
end

