-- ==== Sys2Proof/Machine/Output.lean ====
section
/-! DEFINITION. The output instructions (41_output.md). -/

namespace Sys2Proof.Machine

/-- `output rN` (R110): emit (8, S[N]). -/
def execOutput (r : RegIdx) (s : State) : Result :=
  .next ((s.emit (.byte (s.readSmall r))).advance 1)

/-- `outputw wN` (R111): emit (16, W[N]). -/
def execOutputw (r : RegIdx) (s : State) : Result :=
  .next ((s.emit (.word (s.readWide r))).advance 1)

end Sys2Proof.Machine
end

