-- ==== Sys2Proof/Machine/Dispatch.lean ====
section
/-! DEFINITION. Dispatch: each instruction to its meaning (40_cycle.md R92). -/

namespace Sys2Proof.Machine

def exec (i : Instr) (s : State) : Host.Outcome State Fault Refusal :=
  match i with
  | .output r => Sys2Proof.Machine.execOutput r s
  | .outputw r => Sys2Proof.Machine.execOutputw r s
  | .loadmem r addr => Sys2Proof.Machine.execLoadmem r addr s
  | .loadmemw r addr => Sys2Proof.Machine.execLoadmemw r addr s
  | .storemem r addr => Sys2Proof.Machine.execStoremem r addr s
  | .storememw r addr => Sys2Proof.Machine.execStorememw r addr s
  | .jmp addr => Sys2Proof.Machine.execJmp addr s
  | .jmpodd r addr => Sys2Proof.Machine.execJmpodd r addr s
  | .copy a b => Sys2Proof.Machine.execCopy a b s
  | .not a b => Sys2Proof.Machine.execNot a b s
  | .neg a b => Sys2Proof.Machine.execNeg a b s
  | .reverse a b => Sys2Proof.Machine.execReverse a b s
  | .numones a b => Sys2Proof.Machine.execNumones a b s
  | .numzeros a b => Sys2Proof.Machine.execNumzeros a b s
  | .and a b => Sys2Proof.Machine.execAnd a b s
  | .or a b => Sys2Proof.Machine.execOr a b s
  | .xor a b => Sys2Proof.Machine.execXor a b s
  | .shl a b => Sys2Proof.Machine.execShl a b s
  | .shr a b => Sys2Proof.Machine.execShr a b s
  | .shlm a b => Sys2Proof.Machine.execShlm a b s
  | .shrm a b => Sys2Proof.Machine.execShrm a b s
  | .rotl a b => Sys2Proof.Machine.execRotl a b s
  | .rotr a b => Sys2Proof.Machine.execRotr a b s
  | .addc a b => Sys2Proof.Machine.execAddc a b s
  | .subc a b => Sys2Proof.Machine.execSubc a b s
  | .addm a b => Sys2Proof.Machine.execAddm a b s
  | .subm a b => Sys2Proof.Machine.execSubm a b s
  | .absdiff a b => Sys2Proof.Machine.execAbsdiff a b s
  | .mulc a b => Sys2Proof.Machine.execMulc a b s
  | .mulm a b => Sys2Proof.Machine.execMulm a b s
  | .div a b => Sys2Proof.Machine.execDiv a b s
  | .mod a b => Sys2Proof.Machine.execMod a b s
  | .powm a b => Sys2Proof.Machine.execPowm a b s
  | .powc a b => Sys2Proof.Machine.execPowc a b s
  | .gt a b => Sys2Proof.Machine.execGt a b s
  | .ge a b => Sys2Proof.Machine.execGe a b s
  | .lt a b => Sys2Proof.Machine.execLt a b s
  | .le a b => Sys2Proof.Machine.execLe a b s
  | .invalidSelector sel => Sys2Proof.Machine.execInvalidSelector sel s
  | .copyW a b => Sys2Proof.Machine.execCopyW a b s
  | .notW a b => Sys2Proof.Machine.execNotW a b s
  | .negW a b => Sys2Proof.Machine.execNegW a b s
  | .reverseW a b => Sys2Proof.Machine.execReverseW a b s
  | .numonesW a b => Sys2Proof.Machine.execNumonesW a b s
  | .numzerosW a b => Sys2Proof.Machine.execNumzerosW a b s
  | .andW a b => Sys2Proof.Machine.execAndW a b s
  | .orW a b => Sys2Proof.Machine.execOrW a b s
  | .xorW a b => Sys2Proof.Machine.execXorW a b s
  | .shlW a b => Sys2Proof.Machine.execShlW a b s
  | .shrW a b => Sys2Proof.Machine.execShrW a b s
  | .shlmW a b => Sys2Proof.Machine.execShlmW a b s
  | .shrmW a b => Sys2Proof.Machine.execShrmW a b s
  | .rotlW a b => Sys2Proof.Machine.execRotlW a b s
  | .rotrW a b => Sys2Proof.Machine.execRotrW a b s
  | .addcW a b => Sys2Proof.Machine.execAddcW a b s
  | .subcW a b => Sys2Proof.Machine.execSubcW a b s
  | .addmW a b => Sys2Proof.Machine.execAddmW a b s
  | .submW a b => Sys2Proof.Machine.execSubmW a b s
  | .absdiffW a b => Sys2Proof.Machine.execAbsdiffW a b s
  | .mulcW a b => Sys2Proof.Machine.execMulcW a b s
  | .mulmW a b => Sys2Proof.Machine.execMulmW a b s
  | .divW a b => Sys2Proof.Machine.execDivW a b s
  | .modW a b => Sys2Proof.Machine.execModW a b s
  | .powmW a b => Sys2Proof.Machine.execPowmW a b s
  | .powcW a b => Sys2Proof.Machine.execPowcW a b s
  | .gtW a b => Sys2Proof.Machine.execGtW a b s
  | .geW a b => Sys2Proof.Machine.execGeW a b s
  | .ltW a b => Sys2Proof.Machine.execLtW a b s
  | .leW a b => Sys2Proof.Machine.execLeW a b s
  | .invalidSelectorW sel => Sys2Proof.Machine.execInvalidSelectorW sel s
  | .copyI a b v => Sys2Proof.Machine.execCopyI a b v s
  | .notI a b v => Sys2Proof.Machine.execNotI a b v s
  | .negI a b v => Sys2Proof.Machine.execNegI a b v s
  | .reverseI a b v => Sys2Proof.Machine.execReverseI a b v s
  | .numonesI a b v => Sys2Proof.Machine.execNumonesI a b v s
  | .numzerosI a b v => Sys2Proof.Machine.execNumzerosI a b v s
  | .andI a b v => Sys2Proof.Machine.execAndI a b v s
  | .orI a b v => Sys2Proof.Machine.execOrI a b v s
  | .xorI a b v => Sys2Proof.Machine.execXorI a b v s
  | .shlI a b v => Sys2Proof.Machine.execShlI a b v s
  | .shrI a b v => Sys2Proof.Machine.execShrI a b v s
  | .shlmI a b v => Sys2Proof.Machine.execShlmI a b v s
  | .shrmI a b v => Sys2Proof.Machine.execShrmI a b v s
  | .rotlI a b v => Sys2Proof.Machine.execRotlI a b v s
  | .rotrI a b v => Sys2Proof.Machine.execRotrI a b v s
  | .addcI a b v => Sys2Proof.Machine.execAddcI a b v s
  | .subcI a b v => Sys2Proof.Machine.execSubcI a b v s
  | .addmI a b v => Sys2Proof.Machine.execAddmI a b v s
  | .submI a b v => Sys2Proof.Machine.execSubmI a b v s
  | .absdiffI a b v => Sys2Proof.Machine.execAbsdiffI a b v s
  | .mulcI a b v => Sys2Proof.Machine.execMulcI a b v s
  | .mulmI a b v => Sys2Proof.Machine.execMulmI a b v s
  | .divI a b v => Sys2Proof.Machine.execDivI a b v s
  | .modI a b v => Sys2Proof.Machine.execModI a b v s
  | .powmI a b v => Sys2Proof.Machine.execPowmI a b v s
  | .powcI a b v => Sys2Proof.Machine.execPowcI a b v s
  | .gtI a b v => Sys2Proof.Machine.execGtI a b v s
  | .geI a b v => Sys2Proof.Machine.execGeI a b v s
  | .ltI a b v => Sys2Proof.Machine.execLtI a b v s
  | .leI a b v => Sys2Proof.Machine.execLeI a b v s
  | .invalidSelectorI sel => Sys2Proof.Machine.execInvalidSelectorI sel s
  | .copyWi a b v => Sys2Proof.Machine.execCopyWi a b v s
  | .notWi a b v => Sys2Proof.Machine.execNotWi a b v s
  | .negWi a b v => Sys2Proof.Machine.execNegWi a b v s
  | .reverseWi a b v => Sys2Proof.Machine.execReverseWi a b v s
  | .numonesWi a b v => Sys2Proof.Machine.execNumonesWi a b v s
  | .numzerosWi a b v => Sys2Proof.Machine.execNumzerosWi a b v s
  | .andWi a b v => Sys2Proof.Machine.execAndWi a b v s
  | .orWi a b v => Sys2Proof.Machine.execOrWi a b v s
  | .xorWi a b v => Sys2Proof.Machine.execXorWi a b v s
  | .shlWi a b v => Sys2Proof.Machine.execShlWi a b v s
  | .shrWi a b v => Sys2Proof.Machine.execShrWi a b v s
  | .shlmWi a b v => Sys2Proof.Machine.execShlmWi a b v s
  | .shrmWi a b v => Sys2Proof.Machine.execShrmWi a b v s
  | .rotlWi a b v => Sys2Proof.Machine.execRotlWi a b v s
  | .rotrWi a b v => Sys2Proof.Machine.execRotrWi a b v s
  | .addcWi a b v => Sys2Proof.Machine.execAddcWi a b v s
  | .subcWi a b v => Sys2Proof.Machine.execSubcWi a b v s
  | .addmWi a b v => Sys2Proof.Machine.execAddmWi a b v s
  | .submWi a b v => Sys2Proof.Machine.execSubmWi a b v s
  | .absdiffWi a b v => Sys2Proof.Machine.execAbsdiffWi a b v s
  | .mulcWi a b v => Sys2Proof.Machine.execMulcWi a b v s
  | .mulmWi a b v => Sys2Proof.Machine.execMulmWi a b v s
  | .divWi a b v => Sys2Proof.Machine.execDivWi a b v s
  | .modWi a b v => Sys2Proof.Machine.execModWi a b v s
  | .powmWi a b v => Sys2Proof.Machine.execPowmWi a b v s
  | .powcWi a b v => Sys2Proof.Machine.execPowcWi a b v s
  | .gtWi a b v => Sys2Proof.Machine.execGtWi a b v s
  | .geWi a b v => Sys2Proof.Machine.execGeWi a b v s
  | .ltWi a b v => Sys2Proof.Machine.execLtWi a b v s
  | .leWi a b v => Sys2Proof.Machine.execLeWi a b v s
  | .invalidSelectorWi sel => Sys2Proof.Machine.execInvalidSelectorWi sel s

end Sys2Proof.Machine
end

