-- ==== Sys2Proof/Machine/Step.lean ====
section
/-! DEFINITION. One step (40_cycle.md R90, R91): fetch and decode at pc, then execute; a decode fault changes only
status. -/

namespace Sys2Proof.Machine

/-- THE STEP (R91). It is enabled only while Running; a Faulted core has no step (R90, R227). -/
def step (s : State) : Host.Outcome State Fault Refusal :=
  match s.status with
  | .faulted r => .fault (.noStep r)
  | .running =>
    match decode (fetchWindow s.mem s.pc) with
    | .error e => .next (s.raiseDecodeError e)
    | .ok i => exec i s

/-- `s` with the instruction whose bits are `w` stored at pc, the bits above `nbits` zero (the loader's port, R57). -/
def State.withFetchWord (s : State) (nbits w : Nat) : State :=
  s.withMem (storeBytes s.mem s.pc (tableBytes nbits w))

end Sys2Proof.Machine
end

