-- ==== Sys2Proof/Machine/Assembly.lean ====
section
/-! DEFINITION. The assembler text of an instruction (30_encoding.md R76) and the pseudo-instructions (R77). The spec's
own choice (decision D9); the assembler itself is outside the core (00_scope.md R5) and nothing the machine does
depends on this file. -/

namespace Sys2Proof.Machine

/-- The source's name of an ALU operation (R151). -/
def AluOp.name : AluOp → String
  | .copy => "copy"
  | .not => "not"
  | .neg => "neg"
  | .reverse => "reverse"
  | .numones => "numones"
  | .numzeros => "numzeros"
  | .and => "and"
  | .or => "or"
  | .xor => "xor"
  | .shl => "shl"
  | .shr => "shr"
  | .shlm => "shlm"
  | .shrm => "shrm"
  | .rotl => "rotl"
  | .rotr => "rotr"
  | .addc => "addc"
  | .subc => "subc"
  | .addm => "addm"
  | .subm => "subm"
  | .absdiff => "absdiff"
  | .mulc => "mulc"
  | .mulm => "mulm"
  | .div => "div"
  | .mod => "mod"
  | .powm => "powm"
  | .powc => "powc"
  | .gt => "gt"
  | .ge => "ge"
  | .lt => "lt"
  | .le => "le"
  | .eq => "eq"
  | .ne => "ne"

/-- The name of the operation a selector names in the reference map (R69). -/
def selectorName (s : Selector) : String :=
  match referenceMap.lookup s with
  | some op => AluOp.name op
  | none => "(invalid selector)"

/-- `rN`, a small register (R76). -/
def smallName (i : RegIdx) : String := "r" ++ toString i.val

/-- `wN`, a wide register (R76). -/
def wideName (i : RegIdx) : String := "w" ++ toString i.val

/-- The assembler text of a shape, numbers in decimal (R76). -/
def shapeText : Shape → String
  | .output r => "output " ++ smallName r
  | .outputWide r => "outputw " ++ wideName r
  | .loadMem r addr => "loadmem " ++ smallName r ++ " <- " ++ toString addr.toNat
  | .loadMemWide r addr => "loadmemw " ++ wideName r ++ " <- " ++ toString addr.toNat
  | .storeMem r addr => "storemem " ++ toString addr.toNat ++ " <- " ++ smallName r
  | .storeMemWide r addr => "storememw " ++ toString addr.toNat ++ " <- " ++ wideName r
  | .jump addr => "jmp " ++ toString addr.toNat
  | .jumpIfOdd r addr => "jmpodd " ++ smallName r ++ ", " ++ toString addr.toNat
  | .binOpSmall s a b => selectorName s ++ " " ++ smallName a ++ ", " ++ smallName b
  | .binOpWide s a b => selectorName s ++ ".w " ++ wideName a ++ ", " ++ wideName b
  | .binOpImmSmall s a b v =>
    selectorName s ++ ".i " ++ smallName a ++ ", " ++ smallName b ++ ", " ++ toString v.toNat
  | .binOpImmWide s a b v =>
    selectorName s ++ ".wi " ++ wideName a ++ ", " ++ wideName b ++ ", " ++ toString v.toNat
  | .invalidSelector _ s => selectorName s

/-- The assembler text of an instruction (R76). -/
def instrText (i : Instr) : String := shapeText i.toShape

/-- The pseudo-instructions (R77). -/
inductive Pseudo where
  | li (a : RegIdx) (v : Byte)
  | liW (a : RegIdx) (v : Word)
  | mov (a b : RegIdx)
  | movW (a b : RegIdx)
  | nop
  | inc (a : RegIdx)
  | dec (a : RegIdx)
  | halt
deriving DecidableEq, Repr

/-- The instruction a pseudo-instruction at address `here` stands for (R77). -/
def expand (here : Addr) : Pseudo → Instr
  | .li a v => .copyI a 0 v
  | .liW a v => .copyWi a 0 v
  | .mov a b => .copy a b
  | .movW a b => .copyW a b
  | .nop => .copy 0 0
  | .inc a => .addmI a a 1
  | .dec a => .submI a a 1
  | .halt => .jmp here

end Sys2Proof.Machine
end

