-- ==== Sys2Proof/Machine/HostInterface.lean ====
section
/-! DEFINITION. The transactions between the CORE and its host and loader (40_cycle.md R96 to R99): creating a core from
a program image, stepping, stopping under a termination policy, and the report of a run. The output sink's
transactions are the field `out` (R112). -/

namespace Sys2Proof.Machine

/-- `create(image)` with any initial registers and any bytes outside the image, which the source leaves open
(93_implementation_defined.md U3, U4): the image at addresses 0..n−1, pc 0, nothing emitted, Running; refused when the
image is longer than memory (R57, R96, R250, decision D12). -/
def createWith (small : Vector Byte 16) (wide : Vector Word 16) (mem : Memory) (image : List Byte) :
    Except Refusal State :=
  if Config.memSize < image.length then .error (.imageTooLong image.length)
  else .ok { State.reset with small := small, wide := wide, mem := storeBytes mem 0 image }

/-- `create(image)`: the reset state with the image at addresses 0..n−1 (R250, R251). Registers and the bytes outside
the image have their reference value 0 (decisions D2, D3). -/
def create (image : List Byte) : Except Refusal State :=
  createWith State.reset.small State.reset.wide State.reset.mem image

/-- The host's `step()`: one step if Running, nothing when Faulted; the status it returns is the new state's (R96). -/
def hostStep (s : State) : State :=
  match step s with
  | .next t => t
  | .fault _ => s
  | .refused _ => s

/-- Whether a state is Faulted. -/
def State.isFaulted (s : State) : Bool :=
  match s.status with
  | .running => false
  | .faulted _ => true

/-- Whether the host stops before its next `step()`, having made `done` calls, with `stop` the value of the external
stop signal between these two steps (R97). A run also ends when status is Faulted (R99). -/
def hostStops (policy : Config.Termination) (done : Nat) (stop : Bool) (s : State) : Bool :=
  s.isFaulted ||
    match policy with
    | .stepBudget n => n ≤ done
    | .externalStop => stop
    | .pcLeavesMemory => false

/-- A run under a policy, followed for at most as many steps as `signals` is long; each entry is the external stop
signal between two steps (R97, R99). The observation of the run is the state it answers. -/
def hostRun (policy : Config.Termination) (done : Nat) (signals : List Bool) (s : State) : State :=
  match signals with
  | [] => s
  | stop :: rest =>
    if hostStops policy done stop s then s else hostRun policy (done + 1) rest (hostStep s)

/-- What the host reports to its user of a state a run ended in (R97, R98). -/
inductive Report where
  /-- Not Faulted: the host stopped, or the run was not followed further. -/
  | stillRunning
  /-- The opcode fetch at the past-end pc, under `pcLeavesMemory`. -/
  | normalTermination
  /-- Every other fault, and every fault under the other policies. -/
  | fault (r : FaultRecord)
deriving DecidableEq, Repr

/-- Whether a fault is the opcode fetch at the past-end value (R97, R222 case (a)). -/
def FaultRecord.leftMemory (r : FaultRecord) : Bool :=
  r.kind = .addressOutOfRange ∧ r.pc = Config.memSize

/-- The host's report under a policy (R97). -/
def report (policy : Config.Termination) (s : State) : Report :=
  match s.status, policy with
  | .running, _ => .stillRunning
  | .faulted r, .pcLeavesMemory => if r.leftMemory then .normalTermination else .fault r
  | .faulted r, .stepBudget _ => .fault r
  | .faulted r, .externalStop => .fault r

end Sys2Proof.Machine
end

