-- ==== Sys2Proof/Machine/SelectorMachine.lean ====
section
/-! DEFINITION. The CORE for EVERY value of its open parameter ALU_SELECTOR_MAP (30_encoding.md R68, decision D1). It
runs decoded shapes, whose operation is still a selector number, and looks the selector up in the map it is given.
`step` is this machine at the reference map (R69); a map may also select `eq` and `ne` (R182, R183). -/

namespace Sys2Proof.Machine

/-- An arithmetic instruction whose selector the map assigns runs with that operation; another takes InvalidOperation
(R68). -/
def withOperation (m : Config.SelectorMap) (sel : Selector) (s : State) (run : AluOp → State → Result) : Result :=
  match m.lookup sel with
  | some op => run op s
  | none => takeInvalidOperation s

/-- Dispatch by decoded shape (R92), under a selector map. -/
def execShape (m : Config.SelectorMap) (sh : Shape) (s : State) : Result :=
  match sh with
  | .output r => execOutput r s
  | .outputWide r => execOutputw r s
  | .loadMem r addr => execLoadmem r addr s
  | .loadMemWide r addr => execLoadmemw r addr s
  | .storeMem r addr => execStoremem r addr s
  | .storeMemWide r addr => execStorememw r addr s
  | .jump addr => execJmp addr s
  | .jumpIfOdd r addr => execJmpodd r addr s
  | .binOpSmall sel a b => withOperation m sel s fun op => binOpSmall op a b
  | .binOpWide sel a b => withOperation m sel s fun op => binOpWide op a b
  | .binOpImmSmall sel a b v => withOperation m sel s fun op => binOpImmSmall op a b v
  | .binOpImmWide sel a b v => withOperation m sel s fun op => binOpImmWide op a b v
  | .invalidSelector _ _ => takeInvalidOperation s

/-- One step under a selector map (R91). -/
def stepWith (m : Config.SelectorMap) (s : State) : Result :=
  match s.status with
  | .faulted r => .fault (.noStep r)
  | .running =>
    match decodeShape (fetchWindow s.mem s.pc) with
    | .error e => .next (s.raiseDecodeError e)
    | .ok sh => execShape m sh s

end Sys2Proof.Machine
end

