-- ==== Sys2Proof/Safety.lean ====
section
/-! DEFINITION. What claims call a legal state and a safe run. -/

namespace Sys2Proof.Machine

/-- A fault record as 10_state.md R28 describes it: pc within 0..MEM_SIZE, an address exactly for AddressOutOfRange and
within 0..MEM_SIZE. -/
def FaultRecord.legal (r : FaultRecord) : Bool :=
  decide (r.pc ≤ Config.memSize) &&
    match r.kind, r.addr with
    | .addressOutOfRange, some a => decide (a ≤ Config.memSize)
    | .invalidOperation, none => true
    | .truncatedInstruction, none => true
    | _, _ => false

/-- A status as R28 and R226 describe it: a Faulted core's record is legal and names the pc, which stays at the faulting
instruction. -/
def State.statusLegal (s : State) : Bool :=
  match s.status with
  | .running => true
  | .faulted r => r.legal && decide (r.pc = s.pc)

/-- The invariant of the machine: pc is an address or the past-end value (R20, R26), memory is in canonical form, and
status is legal. -/
def State.inv (s : State) : Bool :=
  decide (s.pc ≤ Config.memSize) && s.mem.wf && s.statusLegal

/-- The state a result answers, if it answers one. -/
def nextState : Result → Option State
  | .next s => some s
  | .fault _ => none
  | .refused _ => none

/-- A run of `n` steps is safe when the core is Running after it: no fault was taken on the way (R227). -/
def runsSafely (n : Nat) (s : State) : Bool :=
  match Sys2Proof.core.run n s with
  | .next t => !t.isFaulted
  | .fault _ => false
  | .refused _ => false

end Sys2Proof.Machine
end

