-- ==== Sys2Proof/Certificates/Slice0/Formulas.lean ====
section
/-! DEFINITION. The terms of the statements in Obligations.lean: the ALU's results as the spec writes them, in natural
numbers (44_alu.md R152 to R183); bytes lying in memory; the instruction forms a statement ranges over; and what an
instruction may change. The machine uses none of this. -/

namespace Sys2Proof.Certificates

open Sys2Proof.Machine

/-- The result of an operation at `bits` bits on natural-number inputs, formula by formula as 44_alu.md states it.
`numones` differs between the widths (R156). -/
def formula (op : AluOp) (w : Width) (a b : Nat) : Nat :=
  let bits := w.bits
  let max := 2 ^ bits - 1
  let modulus := 2 ^ bits
  match op with
  | .copy => b
  | .not => b ^^^ max
  | .neg => max - b
  | .reverse => ∑ i ∈ Finset.range bits, (b.testBit i).toNat * 2 ^ (bits - 1 - i)
  | .numones =>
    match w with
    | .small => b
    | .wide => b % 256 * 256 + b / 256
  | .numzeros => ((Finset.range bits).filter fun i => b.testBit i = true).card
  | .and => a &&& b
  | .or => a ||| b
  | .xor => a ^^^ b
  | .shl => if bits ≤ b then 0 else a * 2 ^ b % modulus
  | .shr => if bits ≤ b then 0 else a / 2 ^ b
  | .shlm => a * 2 ^ (b % bits) % modulus
  | .shrm => a / 2 ^ (b % bits)
  | .rotl => a * 2 ^ (b % bits) % modulus + a / 2 ^ (bits - b % bits)
  | .rotr => a / 2 ^ (b % bits) + a * 2 ^ (bits - b % bits) % modulus
  | .addc => min (a + b) max
  | .subc => if b ≤ a then a - b else 0
  | .addm => (a + b) % modulus
  | .subm => (a + modulus - b) % modulus
  | .absdiff => if a ≤ b then b - a else a - b
  | .mulc => min (a * b) max
  | .mulm => a * b % modulus
  | .div => a / Nat.max b 1
  | .mod => a - Nat.max b 1 * (a / Nat.max b 1)
  | .powm => a ^ b % modulus
  | .powc => min (a ^ b) max
  | .gt => if b < a then 1 else 0
  | .ge => if b ≤ a then 1 else 0
  | .lt => if a < b then 1 else 0
  | .le => if a ≤ b then 1 else 0
  | .eq => if a = b then 1 else 0
  | .ne => if a = b then 0 else 1

/-- The bytes `bs` lie in memory at `a`, all of them within memory. -/
abbrev bytesAt (m : Memory) (a : Nat) (bs : List Byte) : Prop :=
  a + bs.length ≤ 65536 ∧ ∀ k, k < bs.length → m.read (a + k) = bs.getD k 0

/-- The eight illegal opcode bytes (R71). -/
def illegalBytes : List Byte := [0x9E, 0x9F, 0xBE, 0xBF, 0xDE, 0xDF, 0xFE, 0xFF]

/-- A core that has just taken a fault: `s` with nothing changed but status. -/
def faultedWith (s : State) (kind : FaultKind) (addr : Option Nat) : State :=
  { s with status := .faulted ⟨kind, s.pc, addr⟩ }

/-- The thirty instructions OP rA, rB (R200), each with the operation it names. -/
def binOpSmallForms : List (AluOp × (RegIdx → RegIdx → Instr)) :=
  [(.copy, .copy), (.not, .not), (.neg, .neg), (.reverse, .reverse), (.numones, .numones),
   (.numzeros, .numzeros), (.and, .and), (.or, .or), (.xor, .xor), (.shl, .shl),
   (.shr, .shr), (.shlm, .shlm), (.shrm, .shrm), (.rotl, .rotl), (.rotr, .rotr),
   (.addc, .addc), (.subc, .subc), (.addm, .addm), (.subm, .subm), (.absdiff, .absdiff),
   (.mulc, .mulc), (.mulm, .mulm), (.div, .div), (.mod, .mod), (.powm, .powm),
   (.powc, .powc), (.gt, .gt), (.ge, .ge), (.lt, .lt), (.le, .le)]

/-- The thirty instructions OP.w wA, wB (R201), each with the operation it names. -/
def binOpWideForms : List (AluOp × (RegIdx → RegIdx → Instr)) :=
  [(.copy, .copyW), (.not, .notW), (.neg, .negW), (.reverse, .reverseW), (.numones, .numonesW),
   (.numzeros, .numzerosW), (.and, .andW), (.or, .orW), (.xor, .xorW), (.shl, .shlW),
   (.shr, .shrW), (.shlm, .shlmW), (.shrm, .shrmW), (.rotl, .rotlW), (.rotr, .rotrW),
   (.addc, .addcW), (.subc, .subcW), (.addm, .addmW), (.subm, .submW), (.absdiff, .absdiffW),
   (.mulc, .mulcW), (.mulm, .mulmW), (.div, .divW), (.mod, .modW), (.powm, .powmW),
   (.powc, .powcW), (.gt, .gtW), (.ge, .geW), (.lt, .ltW), (.le, .leW)]

/-- The thirty instructions OP.i rA, rB, V (R202), each with the operation it names. -/
def binOpImmSmallForms : List (AluOp × (RegIdx → RegIdx → Byte → Instr)) :=
  [(.copy, .copyI), (.not, .notI), (.neg, .negI), (.reverse, .reverseI), (.numones, .numonesI),
   (.numzeros, .numzerosI), (.and, .andI), (.or, .orI), (.xor, .xorI), (.shl, .shlI),
   (.shr, .shrI), (.shlm, .shlmI), (.shrm, .shrmI), (.rotl, .rotlI), (.rotr, .rotrI),
   (.addc, .addcI), (.subc, .subcI), (.addm, .addmI), (.subm, .submI), (.absdiff, .absdiffI),
   (.mulc, .mulcI), (.mulm, .mulmI), (.div, .divI), (.mod, .modI), (.powm, .powmI),
   (.powc, .powcI), (.gt, .gtI), (.ge, .geI), (.lt, .ltI), (.le, .leI)]

/-- The thirty instructions OP.wi wA, wB, V (R203), each with the operation it names. -/
def binOpImmWideForms : List (AluOp × (RegIdx → RegIdx → Word → Instr)) :=
  [(.copy, .copyWi), (.not, .notWi), (.neg, .negWi), (.reverse, .reverseWi), (.numones, .numonesWi),
   (.numzeros, .numzerosWi), (.and, .andWi), (.or, .orWi), (.xor, .xorWi), (.shl, .shlWi),
   (.shr, .shrWi), (.shlm, .shlmWi), (.shrm, .shrmWi), (.rotl, .rotlWi), (.rotr, .rotrWi),
   (.addc, .addcWi), (.subc, .subcWi), (.addm, .addmWi), (.subm, .submWi), (.absdiff, .absdiffWi),
   (.mulc, .mulcWi), (.mulm, .mulmWi), (.div, .divWi), (.mod, .modWi), (.powm, .powmWi),
   (.powc, .powcWi), (.gt, .gtWi), (.ge, .geWi), (.lt, .ltWi), (.le, .leWi)]

/-- The small register an instruction writes, if it writes one (R21). -/
def smallDestination (i : Instr) : Option RegIdx :=
  match i.toShape with
  | .loadMem r _ => some r
  | .binOpSmall _ a _ => some a
  | .binOpImmSmall _ a _ _ => some a
  | _ => none

/-- The wide register an instruction writes, if it writes one (R22). -/
def wideDestination (i : Instr) : Option RegIdx :=
  match i.toShape with
  | .loadMemWide r _ => some r
  | .binOpWide _ a _ => some a
  | .binOpImmWide _ a _ _ => some a
  | _ => none

/-- The byte addresses an instruction stores to: the effective address, and the next one for a word. -/
def storedAddresses (i : Instr) : List Nat :=
  match i with
  | .storemem _ addr => [effectiveAddress addr]
  | .storememw _ addr => [effectiveAddress addr, effectiveAddress addr + 1]
  | _ => []

/-- Whether an instruction of a state emits, and what (R110, R111). -/
def emitted (i : Instr) (s : State) : List Emission :=
  match i with
  | .output r => [.byte (s.readSmall r)]
  | .outputw r => [.word (s.readWide r)]
  | _ => []

end Sys2Proof.Certificates
end

