-- ==== Sys2Proof/Certificates/Slice0/Obligations.lean ====
section
/-! DEFINITION. The statements for the provers. Each docstring names the rule of spec/ a statement formalises, or the
sentence of spec/ (a decision, a derived fact) or the log entry it rests on. A statement about a next state gives the
whole state, so that it says both what the instruction changes and that it changes nothing else. -/

open Sys2Proof Sys2Proof.Machine Sys2Proof.Certificates

/-! ### Encoding and decoding -/

/-- R75's round trip, for every well-formed instruction, every operand value and any bytes after it. The bytes are those
of the reference ALU_SELECTOR_MAP, the spec's decision D1 (log 1), and jmp's nibble is 0, decision D13 (log 13). -/
def Obligations.DecodeInvertsEncode : Prop :=
  ∀ (i : Instr) (rest : List Byte), i.wellFormed = true → decode (encode i ++ rest) = .ok i

/-- The converse: a window that decodes begins with the encoding of what it decodes to, except that jmp's don't-care
nibble may have any value (R72). Under the reference map, decision D1 (log 1). -/
def Obligations.DecodedWindowBeginsWithTheEncoding : Prop :=
  ∀ (window : List Byte) (i : Instr), decode window = .ok i →
    i.wellFormed = true ∧
      ((∃ rest, window = encode i ++ rest) ∨
        ∃ (addr : Addr) (nibble : RegIdx) (rest : List Byte), i = .jmp addr ∧
          window = BitVec.ofNat 8 (0x60 + nibble.val) :: lowByte addr :: highByte addr :: rest)

/-- A few words of 95_test_vectors.md table L2-D2 and vector L1-5, bit by bit from the encoding tables. The arithmetic
ones use the reference map, decision D1 (log 1). -/
def Obligations.WrittenWordsDecode : Prop :=
  decode [0x1F] = .ok (.outputw 15) ∧
  decode [0x2A, 0x34, 0x12] = .ok (.loadmem 10 0x1234) ∧
  decode [0x6F, 0xCD, 0xAB] = .ok (.jmp 0xABCD) ∧
  decode [0x9D, 0x3C] = .ok (.le 3 12) ∧
  decode [0xB1, 0xF0] = .ok (.addmW 15 0) ∧
  decode [0xC0, 0x50, 0xFF] = .ok (.copyI 5 0 0xFF) ∧
  decode [0xF1, 0x25, 0x2C, 0x01] = .ok (.addmWi 2 5 300) ∧
  decode [0x9E, 0x00] = .ok (.invalidSelector 30)

/-- R70: classification is total, and the twelve shapes' byte ranges are exactly those the rule lists, so they partition
0x00..0xFF. -/
def Obligations.OpcodeRangesOfTheTwelveShapes : Prop :=
  ∀ op : Byte,
    (classify op = .output ↔ op.toNat ≤ 0x0F) ∧
    (classify op = .outputWide ↔ 0x10 ≤ op.toNat ∧ op.toNat ≤ 0x1F) ∧
    (classify op = .loadMem ↔ 0x20 ≤ op.toNat ∧ op.toNat ≤ 0x2F) ∧
    (classify op = .loadMemWide ↔ 0x30 ≤ op.toNat ∧ op.toNat ≤ 0x3F) ∧
    (classify op = .storeMem ↔ 0x40 ≤ op.toNat ∧ op.toNat ≤ 0x4F) ∧
    (classify op = .storeMemWide ↔ 0x50 ≤ op.toNat ∧ op.toNat ≤ 0x5F) ∧
    (classify op = .jump ↔ 0x60 ≤ op.toNat ∧ op.toNat ≤ 0x6F) ∧
    (classify op = .jumpIfOdd ↔ 0x70 ≤ op.toNat ∧ op.toNat ≤ 0x7F) ∧
    (classify op = .arith .binOpSmall ↔ 0x80 ≤ op.toNat ∧ op.toNat ≤ 0x9F) ∧
    (classify op = .arith .binOpWide ↔ 0xA0 ≤ op.toNat ∧ op.toNat ≤ 0xBF) ∧
    (classify op = .arith .binOpImmSmall ↔ 0xC0 ≤ op.toNat ∧ op.toNat ≤ 0xDF) ∧
    (classify op = .arith .binOpImmWide ↔ 0xE0 ≤ op.toNat)

/-! ### The step -/

/-- A step of a Running core is exec of the decoded instruction, with nothing around it: exec itself moves pc (R91). -/
def Obligations.StepRunsTheDecodedInstruction : Prop :=
  ∀ (s : State) (i : Instr), s.status = .running → decode (fetchWindow s.mem s.pc) = .ok i →
    i.wellFormed = true → step s = exec i s

/-- The same from the bytes in memory: where the encoding of a well-formed instruction lies at pc, the step of a Running
core is exec of that instruction (R73, R91). The encoding is the reference map's, decision D1 (log 1). -/
def Obligations.StepRunsTheBytesAtPc : Prop :=
  ∀ (s : State) (i : Instr), s.status = .running → i.wellFormed = true → bytesAt s.mem s.pc (encode i) →
    step s = exec i s

/-- The interface of this row: the instruction the decoder reads from a table word is the one the next step runs after
State.withFetchWord (log 17). -/
def Obligations.StoredTableWordRunsNext : Prop :=
  ∀ (s : State) (nbits w : Nat) (i : Instr), s.status = .running → s.mem.wf = true → s.pc + 4 ≤ 65536 →
    decodeTableWord nbits w = some i → step (s.withFetchWord nbits w) = exec i (s.withFetchWord nbits w)

/-- Every enabled step completes, and exactly the Running core has one (R90, R94). -/
def Obligations.ExactlyTheRunningCoreHasAStep : Prop :=
  ∀ s : State, (∃ t, step s = .next t) ↔ s.status = .running

/-- A Faulted core has no step, the host's `step()` does nothing to it, and no run under any policy moves it (R227,
decision D14, log 14; the answer noStep is log 16). -/
def Obligations.FaultedCoreIsStoppedForGood : Prop :=
  ∀ (s : State) (r : FaultRecord), s.status = .faulted r →
    step s = .fault (.noStep r) ∧ hostStep s = s ∧
      ∀ (policy : Config.Termination) (done : Nat) (signals : List Bool), hostRun policy done signals s = s

/-- The open parameter ALU_SELECTOR_MAP: `step` is the machine of all selector maps at the reference map (R68, R69,
decision D1, log 1). -/
def Obligations.StepIsTheSelectorMachineAtTheReferenceMap : Prop :=
  ∀ s : State, stepWith referenceMap s = step s

/-- For EVERY selector map: the bytes of an arithmetic instruction run the operation the map gives their selector, from
and to the registers of the class, the immediate forms reading the register of the low nibble
(45_arith_instructions.md §1; 90_conflicts.md C2). -/
def Obligations.EverySelectorMapRunsItsOperation : Prop :=
  ∀ (m : Config.SelectorMap) (sel : Selector) (op : AluOp) (a b : RegIdx) (s : State),
    m.lookup sel = some op → s.status = .running →
    (bytesAt s.mem s.pc [BitVec.ofNat 8 (0x80 + sel.toNat), BitVec.ofNat 8 (16 * a.val + b.val)] →
      stepWith m s = .next { s with
        small := s.small.set a (alu op .small s.small[a] s.small[b]), pc := s.pc + 2 }) ∧
    (bytesAt s.mem s.pc [BitVec.ofNat 8 (0xA0 + sel.toNat), BitVec.ofNat 8 (16 * a.val + b.val)] →
      stepWith m s = .next { s with
        wide := s.wide.set a (alu op .wide s.wide[a] s.wide[b]), pc := s.pc + 2 }) ∧
    (∀ v : Byte,
      bytesAt s.mem s.pc [BitVec.ofNat 8 (0xC0 + sel.toNat), BitVec.ofNat 8 (16 * a.val + b.val), v] →
      stepWith m s = .next { s with
        small := s.small.set a (alu op .small s.small[b] v), pc := s.pc + 3 }) ∧
    (∀ lo hi : Byte,
      bytesAt s.mem s.pc [BitVec.ofNat 8 (0xE0 + sel.toNat), BitVec.ofNat 8 (16 * a.val + b.val), lo, hi] →
      stepWith m s = .next { s with
        wide := s.wide.set a (alu op .wide s.wide[b] (BitVec.ofNat 16 (lo.toNat + 256 * hi.toNat))),
        pc := s.pc + 4 })

/-! ### Faults -/

/-- R221: InvalidOperation is raised exactly when the opcode byte at pc is one of the eight, it changes nothing but
status, and it records kind 1 and pc. -/
def Obligations.InvalidOperationExactlyAtTheEightOpcodes : Prop :=
  FaultKind.code .invalidOperation = 1 ∧
  ∀ s : State, s.status = .running →
    (s.pc < 65536 ∧ s.mem.read s.pc ∈ illegalBytes → step s = .next (faultedWith s .invalidOperation none)) ∧
    ((∃ t r, step s = .next t ∧ t.status = .faulted r ∧ r.kind = .invalidOperation) →
      s.pc < 65536 ∧ s.mem.read s.pc ∈ illegalBytes)

/-- TruncatedInstruction is raised exactly when the opcode byte is in memory and legal and the length it gives runs past
the end of memory. That InvalidOperation comes first is the spec's decision D5 (log 5). -/
def Obligations.TruncatedInstructionExactlyPastTheEnd : Prop :=
  FaultKind.code .truncatedInstruction = 3 ∧
  ∀ s : State, s.status = .running →
    (s.pc < 65536 ∧ s.mem.read s.pc ∉ illegalBytes ∧ 65536 < s.pc + (classify (s.mem.read s.pc)).length →
      step s = .next (faultedWith s .truncatedInstruction none)) ∧
    ((∃ t r, step s = .next t ∧ t.status = .faulted r ∧ r.kind = .truncatedInstruction) →
      s.pc < 65536 ∧ s.mem.read s.pc ∉ illegalBytes ∧ 65536 < s.pc + (classify (s.mem.read s.pc)).length)

/-- AddressOutOfRange is raised exactly at an opcode fetch beyond memory and by a whole loadmemw or storememw with
ADDR = 0xFFFF, whose second byte is at 65536. The past-end pc is the spec's decision D4 (log 4). -/
def Obligations.AddressOutOfRangeExactlyBeyondMemory : Prop :=
  FaultKind.code .addressOutOfRange = 2 ∧
  ∀ s : State, s.status = .running →
    (65536 ≤ s.pc → step s = .next (faultedWith s .addressOutOfRange (some s.pc))) ∧
    (∀ r : RegIdx, bytesAt s.mem s.pc [BitVec.ofNat 8 (0x30 + r.val), 0xFF, 0xFF] ∨
        bytesAt s.mem s.pc [BitVec.ofNat 8 (0x50 + r.val), 0xFF, 0xFF] →
      step s = .next (faultedWith s .addressOutOfRange (some 65536))) ∧
    ((∃ t r, step s = .next t ∧ t.status = .faulted r ∧ r.kind = .addressOutOfRange) →
      65536 ≤ s.pc ∨ ∃ r : RegIdx, bytesAt s.mem s.pc [BitVec.ofNat 8 (0x30 + r.val), 0xFF, 0xFF] ∨
        bytesAt s.mem s.pc [BitVec.ofNat 8 (0x50 + r.val), 0xFF, 0xFF])

/-- Every fault is precise: a step that faults changes nothing but status, and the record names the pc of the faulting
instruction. This extends what the source says of InvalidOperation to every fault: the spec's decision D6 (log 6). -/
def Obligations.FaultsArePreciseAndEffectFree : Prop :=
  ∀ (s t : State) (r : FaultRecord), s.status = .running → step s = .next t → t.status = .faulted r →
    t = faultedWith s r.kind r.addr ∧ r.pc = s.pc

/-- The illegal opcode bytes of the four arithmetic classes, whatever the bytes after them: the instruction takes
InvalidOperation, changing no register and no memory (R204). -/
def Obligations.InvalidSelectorTakesInvalidOperation : Prop :=
  ∀ (sel : Selector) (s : State),
    exec (.invalidSelector sel) s = .next (faultedWith s .invalidOperation none) ∧
    exec (.invalidSelectorW sel) s = .next (faultedWith s .invalidOperation none) ∧
    exec (.invalidSelectorI sel) s = .next (faultedWith s .invalidOperation none) ∧
    exec (.invalidSelectorWi sel) s = .next (faultedWith s .invalidOperation none) ∧
    (30 ≤ sel.toNat → s.status = .running →
      (∃ cls, cls ∈ [0x80, 0xA0, 0xC0, 0xE0] ∧ bytesAt s.mem s.pc [BitVec.ofNat 8 (cls + sel.toNat)]) →
      step s = .next (faultedWith s .invalidOperation none))

/-! ### Invariant and reset -/

/-- Every step keeps the invariant: pc is an address or the past-end value 65536, memory is in canonical form, and a fault
record is legal and names pc. The past-end value is the spec's decision D4 (log 4); the canonical form is the
model's (log 19). -/
def Obligations.EveryStepKeepsTheInvariant : Prop :=
  ∀ s t : State, s.inv = true → step s = .next t → t.inv = true

/-- The reset state has the invariant. -/
def Obligations.ResetHasTheInvariant : Prop :=
  State.reset.inv = true

/-- What reset leaves, for every register and every address. Registers 0 and memory 0 are the spec's decisions D2 and D3
(log 2, log 3). -/
def Obligations.ResetLeavesTheStatedValues : Prop :=
  State.reset.pc = 0 ∧ State.reset.status = .running ∧ State.reset.out = [] ∧
  (∀ i : RegIdx, State.reset.readSmall i = 0 ∧ State.reset.readWide i = 0) ∧
  ∀ a : Nat, State.reset.mem.read a = 0

/-- `create(image)`: refused exactly when the image is longer than memory; else the image lies at 0, every other byte is
0, the rest is the reset state, and the invariant holds. Rests on the spec's decisions D2, D3, D12 (log 2, 3, 12).
The same with any initial registers and any bytes outside the image, which the source leaves open. -/
def Obligations.CreateLoadsTheImageAtZero : Prop :=
  ∀ image : List Byte,
    (65536 < image.length → create image = .error (.imageTooLong image.length)) ∧
    (image.length ≤ 65536 → ∃ s, create image = .ok s ∧ s.inv = true ∧
      (∀ a : Nat, s.mem.read a = image.getD a 0) ∧ s = { State.reset with mem := s.mem }) ∧
    ∀ (small : Vector Byte 16) (wide : Vector Word 16) (mem : Memory), image.length ≤ 65536 → mem.wf = true →
      ∃ s, createWith small wide mem image = .ok s ∧ s.inv = true ∧
        (∀ a : Nat, s.mem.read a = if a < image.length then image.getD a 0 else mem.read a) ∧
        s = { small := small, wide := wide, pc := 0, mem := s.mem, out := [], status := .running }

/-! ### The output stream and the banks -/

/-- R30: every pair has width 8 or 16 and a value of that width; the stream is empty at reset; only output and outputw
append to it, one pair each; and nothing reads it back: with any other stream the step does the same to all else. -/
def Obligations.OutputIsOnlyAppendedToAndNeverRead : Prop :=
  (∀ e : Emission, (e.width = 8 ∨ e.width = 16) ∧ e.value < 2 ^ e.width) ∧
  State.reset.out = [] ∧
  (∀ (i : Instr) (s t : State), exec i s = .next t → t.out = s.out ++ emitted i s) ∧
  ∀ (s t : State) (stream : List Emission), step s = .next t →
    ∃ added, t.out = s.out ++ added ∧
      step { s with out := stream } = .next { t with out := stream ++ added }

/-- R23: the banks are disjoint and no instruction moves a value between them directly. Writing a register of one bank
leaves every register of the other; and each bank's next contents do not depend on the other bank, nor does any
instruction change both. -/
def Obligations.BanksAreDisjointAndExchangeNothing : Prop :=
  (∀ (s : State) (i j : RegIdx) (v : Byte), (s.writeSmall i v).readWide j = s.readWide j) ∧
  (∀ (s : State) (i j : RegIdx) (v : Word), (s.writeWide i v).readSmall j = s.readSmall j) ∧
  (∀ (i : Instr) (s t : State), exec i s = .next t → t.small = s.small ∨ t.wide = s.wide) ∧
  (∀ (i : Instr) (s t : State) (bank : Vector Word 16), exec i s = .next t →
    ∃ t', exec i { s with wide := bank } = .next t' ∧ t'.small = t.small) ∧
  ∀ (i : Instr) (s t : State) (bank : Vector Byte 16), exec i s = .next t →
    ∃ t', exec i { s with small := bank } = .next t' ∧ t'.wide = t.wide

/-- The frame of every instruction: no register but its destination, no byte but those it stores to, the stream but for
what it emits, and status but for a fault it takes. The stored bytes are at the effective address of its address field
(R124). -/
def Obligations.EveryInstructionChangesOnlyItsDestinations : Prop :=
  ∀ (i : Instr) (s t : State), s.mem.wf = true → exec i s = .next t →
    (∀ j : RegIdx, smallDestination i ≠ some j → t.readSmall j = s.readSmall j) ∧
    (∀ j : RegIdx, wideDestination i ≠ some j → t.readWide j = s.readWide j) ∧
    (∀ a : Nat, a ∉ storedAddresses i → t.mem.read a = s.mem.read a) ∧
    t.out = s.out ++ emitted i s ∧
    (t.status = s.status ∨ ∃ kind addr, t = faultedWith s kind addr)

/-! ### Output, loads and stores -/

/-- R110: `output rN` appends (8, S[N]) and advances pc by 1, changing nothing else; so does the step over its byte. -/
def Obligations.OutputEmitsTheSmallRegister : Prop :=
  ∀ (r : RegIdx) (s : State),
    exec (.output r) s = .next { s with out := s.out ++ [.byte s.small[r]], pc := s.pc + 1 } ∧
    (s.status = .running → bytesAt s.mem s.pc [BitVec.ofNat 8 (0x00 + r.val)] →
      step s = .next { s with out := s.out ++ [.byte s.small[r]], pc := s.pc + 1 })

/-- R111: `outputw wN` appends (16, W[N]) and advances pc by 1, changing nothing else; so does the step over its byte. -/
def Obligations.OutputwEmitsTheWideRegister : Prop :=
  ∀ (r : RegIdx) (s : State),
    exec (.outputw r) s = .next { s with out := s.out ++ [.word s.wide[r]], pc := s.pc + 1 } ∧
    (s.status = .running → bytesAt s.mem s.pc [BitVec.ofNat 8 (0x10 + r.val)] →
      step s = .next { s with out := s.out ++ [.word s.wide[r]], pc := s.pc + 1 })

/-- `loadmem rN <- ADDR`, at every address: S[N] becomes the byte at ADDR, pc advances by 3, nothing else changes; so does
the step over its bytes. That no address of it faults is marked derived in R120. -/
def Obligations.LoadmemReadsOneByte : Prop :=
  ∀ (r : RegIdx) (addr : Addr) (s : State),
    exec (.loadmem r addr) s =
      .next { s with small := s.small.set r (s.mem.read addr.toNat), pc := s.pc + 3 } ∧
    (s.status = .running →
      bytesAt s.mem s.pc [BitVec.ofNat 8 (0x20 + r.val), BitVec.ofNat 8 addr.toNat, BitVec.ofNat 8 (addr.toNat / 256)] →
      step s = .next { s with small := s.small.set r (s.mem.read addr.toNat), pc := s.pc + 3 })

/-- R121: `loadmemw wN <- ADDR`: W[N] becomes mem[ADDR] + 256 * mem[ADDR+1] and pc advances by 3; at ADDR = 0xFFFF it takes
AddressOutOfRange with addr 0x10000, W[N] and pc unchanged; so does the step over its bytes; and where its bytes run
past the end of memory the step takes TruncatedInstruction. -/
def Obligations.LoadmemwReadsTwoBytesLowFirst : Prop :=
  ∀ (r : RegIdx) (addr : Addr) (s : State),
    exec (.loadmemw r addr) s =
      (if addr.toNat = 0xFFFF then .next (faultedWith s .addressOutOfRange (some 0x10000))
       else .next { s with
        wide := s.wide.set r
          (BitVec.ofNat 16 ((s.mem.read addr.toNat).toNat + 256 * (s.mem.read (addr.toNat + 1)).toNat)),
        pc := s.pc + 3 }) ∧
    (s.status = .running →
      bytesAt s.mem s.pc [BitVec.ofNat 8 (0x30 + r.val), BitVec.ofNat 8 addr.toNat, BitVec.ofNat 8 (addr.toNat / 256)] →
      step s = exec (.loadmemw r addr) s) ∧
    (s.status = .running → 65533 < s.pc → s.pc < 65536 → s.mem.read s.pc = BitVec.ofNat 8 (0x30 + r.val) →
      step s = .next (faultedWith s .truncatedInstruction none))

/-- `storemem ADDR <- rN`, at every address: the byte at ADDR becomes S[N], every other byte reads as before, pc advances
by 3, nothing else changes. That no address of it faults is marked derived in R122. -/
def Obligations.StorememWritesOneByte : Prop :=
  ∀ (r : RegIdx) (addr : Addr) (s : State), s.mem.wf = true →
    ∃ t, exec (.storemem r addr) s = .next t ∧
      (∀ a : Nat, t.mem.read a = if a = effectiveAddress addr then s.readSmall r else s.mem.read a) ∧
      t = { s with mem := t.mem, pc := s.pc + 3 }

/-- `storememw ADDR <- wN` below 0xFFFF: the low byte of W[N] lands at ADDR and the high byte at ADDR + 1, every other byte
reads as before, pc advances by 3. At 0xFFFF it takes AddressOutOfRange with addr 0x10000 and writes neither byte: the
spec's decision D6 (log 6). -/
def Obligations.StorememwWritesTwoBytesLowFirst : Prop :=
  ∀ (r : RegIdx) (addr : Addr) (s : State), s.mem.wf = true →
    (effectiveAddress addr < 0xFFFF →
      ∃ t, exec (.storememw r addr) s = .next t ∧
        (∀ a : Nat, (t.mem.read a).toNat =
          if a = effectiveAddress addr then (s.readWide r).toNat % 256
          else if a = effectiveAddress addr + 1 then (s.readWide r).toNat / 256
          else (s.mem.read a).toNat) ∧
        t = { s with mem := t.mem, pc := s.pc + 3 }) ∧
    (effectiveAddress addr = 0xFFFF →
      exec (.storememw r addr) s = .next (faultedWith s .addressOutOfRange (some 0x10000)))

/-! ### Branches -/

/-- R140: `jmp ADDR` sets pc to ADDR and changes nothing else, and so does the step over its bytes, whatever the
don't-care nibble; where its bytes run past the end of memory the step takes TruncatedInstruction. -/
def Obligations.JmpGoesToItsAddress : Prop :=
  ∀ (addr : Addr) (s : State),
    exec (.jmp addr) s = .next { s with pc := addr.toNat } ∧
    (s.status = .running → ∀ nibble : RegIdx,
      bytesAt s.mem s.pc
        [BitVec.ofNat 8 (0x60 + nibble.val), BitVec.ofNat 8 addr.toNat, BitVec.ofNat 8 (addr.toNat / 256)] →
      step s = .next { s with pc := addr.toNat }) ∧
    (s.status = .running → 65533 < s.pc → s.pc < 65536 →
      (∃ nibble : RegIdx, s.mem.read s.pc = BitVec.ofNat 8 (0x60 + nibble.val)) →
      step s = .next (faultedWith s .truncatedInstruction none))

/-- R141: `jmpodd rN, ADDR` sets pc to ADDR if S[N] mod 2 = 1 and advances it by 3 otherwise, changing nothing else; so
does the step over its bytes; where they run past the end of memory the step takes TruncatedInstruction. -/
def Obligations.JmpoddGoesWhenOdd : Prop :=
  ∀ (r : RegIdx) (addr : Addr) (s : State),
    exec (.jmpodd r addr) s =
      .next { s with pc := if s.small[r].toNat % 2 = 1 then addr.toNat else s.pc + 3 } ∧
    (s.status = .running →
      bytesAt s.mem s.pc [BitVec.ofNat 8 (0x70 + r.val), BitVec.ofNat 8 addr.toNat, BitVec.ofNat 8 (addr.toNat / 256)] →
      step s = .next { s with pc := if s.small[r].toNat % 2 = 1 then addr.toNat else s.pc + 3 }) ∧
    (s.status = .running → 65533 < s.pc → s.pc < 65536 → s.mem.read s.pc = BitVec.ofNat 8 (0x70 + r.val) →
      step s = .next (faultedWith s .truncatedInstruction none))

/-- Control transfer has no other forms: an instruction that takes no fault leaves pc + length, except jmp, and jmpodd
when its register is odd, which leave their target (R93, R142). -/
def Obligations.OnlyJumpsLeaveTheSequence : Prop :=
  ∀ (i : Instr) (s t : State), s.status = .running → exec i s = .next t → t.status = .running →
    t.pc = s.pc + i.length ∨
    ∃ addr : Addr, t.pc = addr.toNat ∧
      (i = .jmp addr ∨ ∃ r : RegIdx, i = .jmpodd r addr ∧ (s.readSmall r).toNat % 2 = 1)

/-- The past-end value 65536 is reached only by the sequential advance of an instruction that ends at the last byte of
memory: the spec's decision D4 (log 4). -/
def Obligations.PastEndOnlyBySequentialAdvance : Prop :=
  ∀ s t : State, s.pc < 65536 → step s = .next t → t.pc = 65536 →
    ∃ i, decode (fetchWindow s.mem s.pc) = .ok i ∧ s.pc + i.length = 65536

/-! ### The arithmetic instructions -/

/-- Each of the thirty `OP rA, rB` gives the next state in which S[A] is OP's stated formula of S[A] and S[B] and pc has
advanced by 2, all else unchanged. The formulas of powm and powc at 0^0 are the spec's decision D10 (log 10); those of
the shifts, rotates and division are partly its general knowledge (log 18). -/
def Obligations.EveryBinOpSmallComputesItsFormula : Prop :=
  ∀ f ∈ binOpSmallForms, ∀ (a b : RegIdx) (s : State),
    exec (f.2 a b) s = .next { s with
      small := s.small.set a (BitVec.ofNat 8 (formula f.1 .small s.small[a].toNat s.small[b].toNat)),
      pc := s.pc + 2 }

/-- Each of the thirty `OP.w wA, wB`: W[A] is OP's formula of W[A] and W[B], pc advances by 2, all else unchanged.
Decision D10 and general knowledge as above (log 10, log 18). -/
def Obligations.EveryBinOpWideComputesItsFormula : Prop :=
  ∀ f ∈ binOpWideForms, ∀ (a b : RegIdx) (s : State),
    exec (f.2 a b) s = .next { s with
      wide := s.wide.set a (BitVec.ofNat 16 (formula f.1 .wide s.wide[a].toNat s.wide[b].toNat)),
      pc := s.pc + 2 }

/-- Each of the thirty `OP.i rA, rB, V`: S[A] is OP's formula of S[B] and V, pc advances by 3, all else unchanged.
Decision D10 and general knowledge as above (log 10, log 18). -/
def Obligations.EveryBinOpImmSmallComputesItsFormula : Prop :=
  ∀ f ∈ binOpImmSmallForms, ∀ (a b : RegIdx) (v : Byte) (s : State),
    exec (f.2 a b v) s = .next { s with
      small := s.small.set a (BitVec.ofNat 8 (formula f.1 .small s.small[b].toNat v.toNat)),
      pc := s.pc + 3 }

/-- Each of the thirty `OP.wi wA, wB, V`: W[A] is OP's formula of W[B] and V, pc advances by 4, all else unchanged.
Decision D10 and general knowledge as above (log 10, log 18). -/
def Obligations.EveryBinOpImmWideComputesItsFormula : Prop :=
  ∀ f ∈ binOpImmWideForms, ∀ (a b : RegIdx) (v : Word) (s : State),
    exec (f.2 a b v) s = .next { s with
      wide := s.wide.set a (BitVec.ofNat 16 (formula f.1 .wide s.wide[b].toNat v.toNat)),
      pc := s.pc + 4 }

/-! ### The ALU -/

/-- The whole ALU: all thirty-two operations at both widths give exactly the number 44_alu.md's formula gives, without any
narrowing. Decision D10 (log 10) and general knowledge (log 18) as above. -/
def Obligations.AluEqualsTheStatedFormulas : Prop :=
  ∀ (op : AluOp) (w : Width) (a b : BitVec w.bits), (alu op w a b).toNat = formula op w a.toNat b.toNat

/-- R167, R168, R172: the exact sum, difference and product clamped to 0..MAX. -/
def Obligations.SaturatingOperationsClamp : Prop :=
  ∀ (w : Width) (a b : BitVec w.bits),
    (alu .addc w a b).toNat = min (a.toNat + b.toNat) (2 ^ w.bits - 1) ∧
    (alu .subc w a b).toNat = (if b.toNat ≤ a.toNat then a.toNat - b.toNat else 0) ∧
    (alu .mulc w a b).toNat = min (a.toNat * b.toNat) (2 ^ w.bits - 1)

/-- R169, R170, R173: the exact sum, difference and product reduced modulo MAX + 1. -/
def Obligations.ModularOperationsWrap : Prop :=
  ∀ (w : Width) (a b : BitVec w.bits),
    (alu .addm w a b).toNat = (a.toNat + b.toNat) % 2 ^ w.bits ∧
    (alu .subm w a b).toNat = (a.toNat + 2 ^ w.bits - b.toNat) % 2 ^ w.bits ∧
    (alu .mulm w a b).toNat = a.toNat * b.toNat % 2 ^ w.bits

/-- R155: bit i of the result is bit BITS − 1 − i of b, the result is the rule's sum, and reversing twice gives b back. -/
def Obligations.ReverseMirrorsEveryBit : Prop :=
  ∀ (w : Width) (a a' b : BitVec w.bits),
    (∀ i, i < w.bits → (alu .reverse w a b).getLsbD i = b.getLsbD (w.bits - 1 - i)) ∧
    (alu .reverse w a b).toNat =
      ∑ i ∈ Finset.range w.bits, (b.getLsbD i).toNat * 2 ^ (w.bits - 1 - i) ∧
    alu .reverse w a' (alu .reverse w a b) = b

/-- R157: numzeros counts the set bits of b, so it is at most BITS, 0 only for 0 and BITS only for MAX. -/
def Obligations.NumzerosCountsTheSetBits : Prop :=
  ∀ (w : Width) (a b : BitVec w.bits),
    (alu .numzeros w a b).toNat = ((Finset.range w.bits).filter fun i => b.getLsbD i = true).card ∧
    (alu .numzeros w a b).toNat ≤ w.bits ∧
    ((alu .numzeros w a b).toNat = 0 ↔ b = 0) ∧
    ((alu .numzeros w a b).toNat = w.bits ↔ b = BitVec.allOnes w.bits)

/-- R178 to R183: the six comparisons are unsigned and give exactly 1 or 0. -/
def Obligations.ComparisonsGiveOneOrZero : Prop :=
  ∀ (w : Width) (a b : BitVec w.bits),
    (alu .gt w a b).toNat = (if b.toNat < a.toNat then 1 else 0) ∧
    (alu .ge w a b).toNat = (if b.toNat ≤ a.toNat then 1 else 0) ∧
    (alu .lt w a b).toNat = (if a.toNat < b.toNat then 1 else 0) ∧
    (alu .le w a b).toNat = (if a.toNat ≤ b.toNat then 1 else 0) ∧
    (alu .eq w a b).toNat = (if a.toNat = b.toNat then 1 else 0) ∧
    (alu .ne w a b).toNat = (if a.toNat = b.toNat then 0 else 1)

/-- The division law of R184: with d = max(b, 1), a = d * div(a, b) + mod(a, b) and mod(a, b) < d. R184 is marked derived,
and the floor quotient is general knowledge GK3 (log 18). -/
def Obligations.DivisionLaw : Prop :=
  ∀ (w : Width) (a b : BitVec w.bits),
    a.toNat = max b.toNat 1 * (alu .div w a b).toNat + (alu .mod w a b).toNat ∧
    (alu .mod w a b).toNat < max b.toNat 1

/-- Rotations lose no bit: each undoes the other, and they keep the number of set bits. What "rotated" means is the
spec's general knowledge GK2 (log 18). -/
def Obligations.RotationsUndoEachOther : Prop :=
  ∀ (w : Width) (a b c : BitVec w.bits),
    alu .rotr w (alu .rotl w a b) b = a ∧ alu .rotl w (alu .rotr w a b) b = a ∧
    alu .numzeros w c (alu .rotl w a b) = alu .numzeros w c a

/-- The corner cases of the powers: a^0 = 1, 0^0 among them by the spec's decision D10 (log 10); an even a with b from BITS
on gives powm 0; a from 2 on with b from BITS on gives powc MAX. -/
def Obligations.PowerCornerCases : Prop :=
  ∀ (w : Width) (a b : BitVec w.bits),
    (alu .powm w a 0 = 1 ∧ alu .powc w a 0 = 1) ∧
    (a.toNat % 2 = 0 → w.bits ≤ b.toNat → alu .powm w a b = 0) ∧
    (2 ≤ a.toNat → w.bits ≤ b.toNat → alu .powc w a b = BitVec.allOnes w.bits)

/-! ### Memory -/

/-- A read returns the last value written to that byte, and a write leaves every other byte alone (R51, R53), in the
model's canonical form of memory (log 19). -/
def Obligations.ReadAfterWrite : Prop :=
  ∀ (m : Memory) (a b : Nat) (v : Byte), m.wf = true →
    (m.write a v).read b = if b = a then v else m.read b

/-- The model's canonical form (log 19): two memories in it that read alike everywhere are equal data. -/
def Obligations.MemoryIsDeterminedByItsBytes : Prop :=
  ∀ m m' : Memory, m.wf = true → m'.wf = true → (∀ a, m.read a = m'.read a) → m = m'

/-- R45, in full: the two range checks in their order, without wrap, and the little-endian value. -/
def Obligations.WordReadIsCheckedAndLittleEndian : Prop :=
  ∀ (m : Memory) (a : Nat),
    (65536 ≤ a → readWord m a = .error a) ∧
    (a < 65536 → 65536 ≤ a + 1 → readWord m a = .error (a + 1)) ∧
    (a + 1 < 65536 → ∃ v, readWord m a = .ok v ∧ v.toNat = (m.read a).toNat + 256 * (m.read (a + 1)).toNat)

/-- A word is exactly its two bytes: after a word store at a, the bytes read v[7:0] and v[15:8] and the word reads v; after
byte stores of lo and hi, the word reads lo + 256 * hi. Marked derived in R48. -/
def Obligations.WordIsItsTwoBytes : Prop :=
  ∀ (m : Memory) (a : Nat) (v : Word) (lo hi : Byte), m.wf = true → a + 1 < 65536 →
    (∃ m', writeWord m a v = .ok m' ∧ readByte m' a = .ok (BitVec.ofNat 8 v.toNat) ∧
      readByte m' (a + 1) = .ok (BitVec.ofNat 8 (v.toNat / 256)) ∧ readWord m' a = .ok v) ∧
    ∃ m' m'', writeByte m a lo = .ok m' ∧ writeByte m' (a + 1) hi = .ok m'' ∧
      readWord m'' a = .ok (BitVec.ofNat 16 (lo.toNat + 256 * hi.toNat))

/-- Every store is seen by every later fetch: the window fetched at any pc up to three bytes before the stored byte holds
the stored value, and a window that does not reach it is as before. Marked derived in R55. -/
def Obligations.StoredByteIsFetched : Prop :=
  ∀ (r : RegIdx) (addr : Addr) (s t : State) (pc : Nat), s.mem.wf = true → exec (.storemem r addr) s = .next t →
    (pc ≤ addr.toNat → addr.toNat < pc + 4 → (fetchWindow t.mem pc)[addr.toNat - pc]? = some (s.readSmall r)) ∧
    (addr.toNat < pc ∨ pc + 4 ≤ addr.toNat → fetchWindow t.mem pc = fetchWindow s.mem pc)

/-! ### The host -/

/-- StepBudget(n): where n steps of the machine answer next, the host's run under that budget ends in the same state,
however long it is followed. TERMINATION is the open parameter of decision D11 (log 11). -/
def Obligations.StepBudgetRunsThatManySteps : Prop :=
  ∀ (n : Nat) (signals : List Bool) (s t : State), n ≤ signals.length →
    Sys2Proof.core.run n s = .next t → hostRun (.stepBudget n) 0 signals s = t

/-- ExternalStop: a run ends at the first signal, between steps, whatever signals follow. Decision D11 (log 11). -/
def Obligations.ExternalStopEndsTheRun : Prop :=
  ∀ (before after : List Bool) (done : Nat) (s : State),
    hostRun .externalStop done (before ++ true :: after) s = hostRun .externalStop done before s

/-- PcLeavesMemory: a run in which a Running core fetches at the past-end pc is reported as normal termination, and as a
fault under the other policies. Decisions D4 and D11 (log 4, log 11). -/
def Obligations.PcLeavesMemoryIsNormalTermination : Prop :=
  ∀ (s : State) (n : Nat), s.status = .running → s.pc = 65536 →
    report .pcLeavesMemory (hostStep s) = .normalTermination ∧
    report (.stepBudget n) (hostStep s) = .fault ⟨.addressOutOfRange, 65536, some 65536⟩ ∧
    report .externalStop (hostStep s) = .fault ⟨.addressOutOfRange, 65536, some 65536⟩

/-- The pseudo-instructions do what their names say, at every address `here`: li loads V, mov copies, nop only advances pc,
inc and dec wrap, and halt is a jump to itself. The spec's decision D9 (log 9). -/
def Obligations.PseudoInstructionsDoWhatTheySay : Prop :=
  ∀ (s : State) (here : Addr) (a b : RegIdx) (v : Byte) (x : Word),
    exec (expand here (.li a v)) s = .next { s with small := s.small.set a v, pc := s.pc + 3 } ∧
    exec (expand here (.liW a x)) s = .next { s with wide := s.wide.set a x, pc := s.pc + 4 } ∧
    exec (expand here (.mov a b)) s = .next { s with small := s.small.set a s.small[b], pc := s.pc + 2 } ∧
    exec (expand here (.movW a b)) s = .next { s with wide := s.wide.set a s.wide[b], pc := s.pc + 2 } ∧
    exec (expand here .nop) s = .next { s with pc := s.pc + 2 } ∧
    exec (expand here (.inc a)) s = .next { s with small := s.small.set a (s.small[a] + 1), pc := s.pc + 3 } ∧
    exec (expand here (.dec a)) s = .next { s with small := s.small.set a (s.small[a] - 1), pc := s.pc + 3 } ∧
    (s.pc = here.toNat → exec (expand here .halt) s = .next s)
end

