-- ==== Sys2Proof/Laws/Decode.lean ====
section
/-! SUPPORT. The small lemmas of the decoder's and the encoder's fields, and what decoding a window can answer, said
once. -/

namespace Sys2Proof

@[simp] theorem loNibble_pairByte (a b : RegIdx) : loNibble (pairByte a b) = b := by
  revert a b; decide

@[simp] theorem hiNibble_pairByte (a b : RegIdx) : hiNibble (pairByte a b) = a := by
  revert a b; decide

@[simp] theorem pairByte_hi_lo (x : Byte) : pairByte (hiNibble x) (loNibble x) = x := by
  revert x; decide

theorem getLsbD_joinBytes (lo hi : Byte) (i : Nat) :
    (joinBytes lo hi).getLsbD i = if i < 8 then lo.getLsbD i else hi.getLsbD (i - 8) := by
  unfold joinBytes
  exact BitVec.getLsbD_append

@[simp] theorem joinBytes_low_high (w : Word) : joinBytes (lowByte w) (highByte w) = w := by
  apply BitVec.eq_of_getLsbD_eq
  intro i hi
  rw [getLsbD_joinBytes]
  simp only [lowByte, highByte, BitVec.getLsbD_extractLsb']
  split
  · simp [*]
  · simp [show i - 8 < 8 by omega, show 8 + (i - 8) = i by omega]

@[simp] theorem lowByte_joinBytes (lo hi : Byte) : lowByte (joinBytes lo hi) = lo := by
  apply BitVec.eq_of_getLsbD_eq
  intro i hi
  rw [lowByte, BitVec.getLsbD_extractLsb', getLsbD_joinBytes]
  simp [hi]

@[simp] theorem highByte_joinBytes (lo hi : Byte) : highByte (joinBytes lo hi) = hi := by
  apply BitVec.eq_of_getLsbD_eq
  intro i h
  rw [highByte, BitVec.getLsbD_extractLsb', getLsbD_joinBytes]
  simp [h]

/-- The little-endian value of two bytes. -/
theorem joinBytes_toNat (lo hi : Byte) : (joinBytes lo hi).toNat = lo.toNat + 256 * hi.toNat := by
  have h := Nat.shiftLeft_add_eq_or_of_lt lo.isLt hi.toNat
  rw [Nat.shiftLeft_eq] at h
  rw [joinBytes, BitVec.toNat_append, Nat.shiftLeft_eq, ← h]
  omega

theorem lowByte_toNat (w : Word) : (lowByte w).toNat = w.toNat % 256 := by
  simp [lowByte]

theorem highByte_toNat (w : Word) : (highByte w).toNat = w.toNat / 256 := by
  have := w.isLt
  simp only [highByte, BitVec.extractLsb'_toNat, Nat.shiftRight_eq_div_pow]
  omega

@[simp] theorem selectorField_arithOpcode (c : ArithClass) (s : Selector) :
    selectorField (arithOpcode c s) = s := by
  revert s; cases c <;> decide

@[simp] theorem classify_arithOpcode (c : ArithClass) (s : Selector) :
    classify (arithOpcode c s) = .arith c := by
  revert s; cases c <;> decide

theorem illegalOpcode_arithOpcode (c : ArithClass) (s : Selector) :
    illegalOpcode (arithOpcode c s) = if unassignedSelector s then some c else none := by
  simp [illegalOpcode]

/-- The opcode bytes of the simple classes: what each is classified to, and its register field. -/
theorem simpleOpcode_fields (r : RegIdx) :
    (∀ c, loNibble (simpleOpcode c r) = r) ∧
    classify (simpleOpcode 0b0000 r) = .output ∧ classify (simpleOpcode 0b0001 r) = .outputWide ∧
    classify (simpleOpcode 0b0010 r) = .loadMem ∧ classify (simpleOpcode 0b0011 r) = .loadMemWide ∧
    classify (simpleOpcode 0b0100 r) = .storeMem ∧ classify (simpleOpcode 0b0101 r) = .storeMemWide ∧
    classify (simpleOpcode 0b0110 r) = .jump ∧ classify (simpleOpcode 0b0111 r) = .jumpIfOdd := by
  revert r; decide

/-- What decoding a window can answer, in R73's order. -/
theorem decodeShape_cases (op : Byte) (rest : List Byte) :
    (∃ c, illegalOpcode op = some c ∧
        decodeShape (op :: rest) = .ok (.invalidSelector c (selectorField op))) ∨
      (illegalOpcode op = none ∧ rest.length + 1 < (classify op).length ∧
        decodeShape (op :: rest) = .error .truncated) ∨
      (illegalOpcode op = none ∧ (classify op).length ≤ rest.length + 1 ∧
        decodeShape (op :: rest) =
          .ok (assemble (classify op) op (rest.getD 0 0) (rest.getD 1 0) (rest.getD 2 0))) := by
  cases h : illegalOpcode op with
  | some c => exact .inl ⟨c, rfl, by simp [decodeShape, h]⟩
  | none =>
    by_cases hl : rest.length + 1 < (classify op).length
    · exact .inr (.inl ⟨rfl, hl, by simp [decodeShape, h, hl]⟩)
    · exact .inr (.inr ⟨rfl, by omega, by simp [decodeShape, h, hl]⟩)

/-- `decode` is `decodeShape` with the shape named under the reference map. -/
theorem decode_ok_iff (window : List Byte) (i : Instr) :
    decode window = .ok i ↔ ∃ sh, decodeShape window = .ok sh ∧ Instr.ofShape sh = i := by
  unfold decode
  cases h : decodeShape window <;> simp

theorem decode_error_iff (window : List Byte) (e : DecodeError) :
    decode window = .error e ↔ decodeShape window = .error e := by
  unfold decode
  cases h : decodeShape window <;> simp

end Sys2Proof
end

