-- ==== Sys2Proof/Laws/State.lean ====
section
/-! SUPPORT. One lemma for each field of State and each update of Machine/Ops.lean, so that no proof unfolds a record
update; and the register file's read-after-write laws. -/

namespace Sys2Proof.Machine

@[simp] theorem State.writeSmall_small (s : State) (i : RegIdx) (v : Byte) : (s.writeSmall i v).small = s.small.set i v := rfl
@[simp] theorem State.writeSmall_wide (s : State) (i : RegIdx) (v : Byte) : (s.writeSmall i v).wide = s.wide := rfl
@[simp] theorem State.writeSmall_pc (s : State) (i : RegIdx) (v : Byte) : (s.writeSmall i v).pc = s.pc := rfl
@[simp] theorem State.writeSmall_mem (s : State) (i : RegIdx) (v : Byte) : (s.writeSmall i v).mem = s.mem := rfl
@[simp] theorem State.writeSmall_out (s : State) (i : RegIdx) (v : Byte) : (s.writeSmall i v).out = s.out := rfl
@[simp] theorem State.writeSmall_status (s : State) (i : RegIdx) (v : Byte) : (s.writeSmall i v).status = s.status := rfl

@[simp] theorem State.writeWide_small (s : State) (i : RegIdx) (v : Word) : (s.writeWide i v).small = s.small := rfl
@[simp] theorem State.writeWide_wide (s : State) (i : RegIdx) (v : Word) : (s.writeWide i v).wide = s.wide.set i v := rfl
@[simp] theorem State.writeWide_pc (s : State) (i : RegIdx) (v : Word) : (s.writeWide i v).pc = s.pc := rfl
@[simp] theorem State.writeWide_mem (s : State) (i : RegIdx) (v : Word) : (s.writeWide i v).mem = s.mem := rfl
@[simp] theorem State.writeWide_out (s : State) (i : RegIdx) (v : Word) : (s.writeWide i v).out = s.out := rfl
@[simp] theorem State.writeWide_status (s : State) (i : RegIdx) (v : Word) : (s.writeWide i v).status = s.status := rfl

@[simp] theorem State.advance_small (s : State) (len : Nat) : (s.advance len).small = s.small := rfl
@[simp] theorem State.advance_wide (s : State) (len : Nat) : (s.advance len).wide = s.wide := rfl
@[simp] theorem State.advance_pc (s : State) (len : Nat) : (s.advance len).pc = s.pc + len := rfl
@[simp] theorem State.advance_mem (s : State) (len : Nat) : (s.advance len).mem = s.mem := rfl
@[simp] theorem State.advance_out (s : State) (len : Nat) : (s.advance len).out = s.out := rfl
@[simp] theorem State.advance_status (s : State) (len : Nat) : (s.advance len).status = s.status := rfl

@[simp] theorem State.jumpTo_small (s : State) (target : Addr) : (s.jumpTo target).small = s.small := rfl
@[simp] theorem State.jumpTo_wide (s : State) (target : Addr) : (s.jumpTo target).wide = s.wide := rfl
@[simp] theorem State.jumpTo_pc (s : State) (target : Addr) : (s.jumpTo target).pc = target.toNat := rfl
@[simp] theorem State.jumpTo_mem (s : State) (target : Addr) : (s.jumpTo target).mem = s.mem := rfl
@[simp] theorem State.jumpTo_out (s : State) (target : Addr) : (s.jumpTo target).out = s.out := rfl
@[simp] theorem State.jumpTo_status (s : State) (target : Addr) : (s.jumpTo target).status = s.status := rfl

@[simp] theorem State.emit_small (s : State) (e : Emission) : (s.emit e).small = s.small := rfl
@[simp] theorem State.emit_wide (s : State) (e : Emission) : (s.emit e).wide = s.wide := rfl
@[simp] theorem State.emit_pc (s : State) (e : Emission) : (s.emit e).pc = s.pc := rfl
@[simp] theorem State.emit_mem (s : State) (e : Emission) : (s.emit e).mem = s.mem := rfl
@[simp] theorem State.emit_out (s : State) (e : Emission) : (s.emit e).out = s.out ++ [e] := rfl
@[simp] theorem State.emit_status (s : State) (e : Emission) : (s.emit e).status = s.status := rfl

@[simp] theorem State.withMem_small (s : State) (m : Memory) : (s.withMem m).small = s.small := rfl
@[simp] theorem State.withMem_wide (s : State) (m : Memory) : (s.withMem m).wide = s.wide := rfl
@[simp] theorem State.withMem_pc (s : State) (m : Memory) : (s.withMem m).pc = s.pc := rfl
@[simp] theorem State.withMem_mem (s : State) (m : Memory) : (s.withMem m).mem = m := rfl
@[simp] theorem State.withMem_out (s : State) (m : Memory) : (s.withMem m).out = s.out := rfl
@[simp] theorem State.withMem_status (s : State) (m : Memory) : (s.withMem m).status = s.status := rfl

@[simp] theorem State.raiseFault_small (s : State) (kind : FaultKind) (addr : Option Nat) : (s.raiseFault kind addr).small = s.small := rfl
@[simp] theorem State.raiseFault_wide (s : State) (kind : FaultKind) (addr : Option Nat) : (s.raiseFault kind addr).wide = s.wide := rfl
@[simp] theorem State.raiseFault_pc (s : State) (kind : FaultKind) (addr : Option Nat) : (s.raiseFault kind addr).pc = s.pc := rfl
@[simp] theorem State.raiseFault_mem (s : State) (kind : FaultKind) (addr : Option Nat) : (s.raiseFault kind addr).mem = s.mem := rfl
@[simp] theorem State.raiseFault_out (s : State) (kind : FaultKind) (addr : Option Nat) : (s.raiseFault kind addr).out = s.out := rfl
@[simp] theorem State.raiseFault_status (s : State) (kind : FaultKind) (addr : Option Nat) : (s.raiseFault kind addr).status = .faulted ⟨kind, s.pc, addr⟩ := rfl

@[simp] theorem State.readSmall_writeSmall_same (s : State) (i : RegIdx) (v : Byte) :
    (s.writeSmall i v).readSmall i = v := by
  simp [State.readSmall]

theorem State.readSmall_writeSmall_ne (s : State) {i j : RegIdx} (v : Byte) (h : j ≠ i) :
    (s.writeSmall i v).readSmall j = s.readSmall j := by
  have : i.val ≠ j.val := fun e => h (Fin.ext e.symm)
  simp [State.readSmall, this]

@[simp] theorem State.readWide_writeWide_same (s : State) (i : RegIdx) (v : Word) :
    (s.writeWide i v).readWide i = v := by
  simp [State.readWide]

theorem State.readWide_writeWide_ne (s : State) {i j : RegIdx} (v : Word) (h : j ≠ i) :
    (s.writeWide i v).readWide j = s.readWide j := by
  have : i.val ≠ j.val := fun e => h (Fin.ext e.symm)
  simp [State.readWide, this]

@[simp] theorem State.advance_readSmall (s : State) (len : Nat) (j : RegIdx) :
    (s.advance len).readSmall j = s.readSmall j := rfl
@[simp] theorem State.advance_readWide (s : State) (len : Nat) (j : RegIdx) :
    (s.advance len).readWide j = s.readWide j := rfl
@[simp] theorem State.jumpTo_readSmall (s : State) (target : Addr) (j : RegIdx) :
    (s.jumpTo target).readSmall j = s.readSmall j := rfl
@[simp] theorem State.jumpTo_readWide (s : State) (target : Addr) (j : RegIdx) :
    (s.jumpTo target).readWide j = s.readWide j := rfl
@[simp] theorem State.emit_readSmall (s : State) (e : Emission) (j : RegIdx) :
    (s.emit e).readSmall j = s.readSmall j := rfl
@[simp] theorem State.emit_readWide (s : State) (e : Emission) (j : RegIdx) :
    (s.emit e).readWide j = s.readWide j := rfl
@[simp] theorem State.withMem_readSmall (s : State) (m : Memory) (j : RegIdx) :
    (s.withMem m).readSmall j = s.readSmall j := rfl
@[simp] theorem State.withMem_readWide (s : State) (m : Memory) (j : RegIdx) :
    (s.withMem m).readWide j = s.readWide j := rfl
@[simp] theorem State.raiseFault_readSmall (s : State) (kind : FaultKind) (addr : Option Nat) (j : RegIdx) :
    (s.raiseFault kind addr).readSmall j = s.readSmall j := rfl
@[simp] theorem State.raiseFault_readWide (s : State) (kind : FaultKind) (addr : Option Nat) (j : RegIdx) :
    (s.raiseFault kind addr).readWide j = s.readWide j := rfl

end Sys2Proof.Machine
end

