-- ==== Sys2Proof/Laws/Memory.lean ====
section
/-! SUPPORT. The laws of memory's operations: every one keeps the canonical form, and what each primitive access can
answer, said once. -/

namespace Sys2Proof.Machine

/-- Every address listed in `m` is greater than `a`. -/
def Memory.above (m : Memory) (a : Nat) : Prop := ∀ c ∈ m, a < c.1

theorem Memory.wf_iff (m : Memory) :
    m.wf = true ↔
      m.Pairwise (fun c d => c.1 < d.1) ∧ ∀ c ∈ m, c.1 < Config.memSize ∧ c.2 ≠ Memory.unlisted := by
  simp [Memory.wf, List.all_eq_true]

@[simp] theorem Memory.wf_nil : Memory.wf [] = true := rfl

theorem Memory.wf_cons_iff (c : Host.Cell) (m : Memory) :
    Memory.wf (c :: m) = true ↔
      Memory.above m c.1 ∧ c.1 < Config.memSize ∧ c.2 ≠ Memory.unlisted ∧ Memory.wf m = true := by
  rw [Memory.wf_iff, Memory.wf_iff]
  constructor
  · rintro ⟨hp, hall⟩
    obtain ⟨h1, h2⟩ := List.pairwise_cons.mp hp
    exact ⟨h1, (hall c (by simp)).1, (hall c (by simp)).2, h2, fun d hd => hall d (by simp [hd])⟩
  · rintro ⟨h1, h2, h3, h4, h5⟩
    refine ⟨List.pairwise_cons.mpr ⟨h1, h4⟩, fun d hd => ?_⟩
    rcases List.mem_cons.mp hd with rfl | hd
    · exact ⟨h2, h3⟩
    · exact h5 d hd

theorem Memory.cons_wf {a : Nat} {v : Byte} {m : Memory} (ha : a < Config.memSize) (habove : m.above a)
    (hm : m.wf = true) : (Memory.cons a v m).wf = true := by
  unfold Memory.cons
  split
  · exact hm
  · exact (Memory.wf_cons_iff _ _).mpr ⟨habove, ha, ‹_›, hm⟩

theorem Memory.above_cons {a b : Nat} {v : Byte} {m : Memory} (hb : b < a) (hm : m.above b) :
    (Memory.cons a v m).above b := by
  unfold Memory.cons
  split
  · exact hm
  · intro c hc
    rcases List.mem_cons.mp hc with rfl | hc
    · exact hb
    · exact hm c hc

theorem Memory.above_write {a b : Nat} {v : Byte} {m : Memory} (hb : b < a) (hm : m.above b) :
    (m.write a v).above b := by
  induction m with
  | nil => exact Memory.above_cons hb hm
  | cons c rest ih =>
    have hrest : Memory.above rest b := fun d hd => hm d (by simp [hd])
    unfold Memory.write
    split
    · exact Memory.above_cons hb hm
    · split
      · exact Memory.above_cons hb hrest
      · intro d hd
        rcases List.mem_cons.mp hd with rfl | hd
        · exact hm _ (by simp)
        · exact ih hrest d hd

/-- Writing a byte within memory keeps the canonical form. -/
theorem Memory.write_wf {m : Memory} {a : Nat} (v : Byte) (ha : a < Config.memSize) (hm : m.wf = true) :
    (m.write a v).wf = true := by
  induction m with
  | nil => exact Memory.cons_wf ha (by intro c hc; cases hc) rfl
  | cons c rest ih =>
    obtain ⟨habove, hc, hv, hrest⟩ := (Memory.wf_cons_iff _ _).mp hm
    unfold Memory.write
    split
    · refine Memory.cons_wf ha (fun d hd => ?_) hm
      rcases List.mem_cons.mp hd with rfl | hd
      · assumption
      · exact Nat.lt_trans ‹a < c.1› (habove d hd)
    · split
      · next h => exact Memory.cons_wf ha (h ▸ habove) hrest
      · exact (Memory.wf_cons_iff _ _).mpr ⟨Memory.above_write (by omega) habove, hc, hv, ih hrest⟩

theorem inMemory_iff (a : Nat) : inMemory a = true ↔ a < Config.memSize := by
  simp [inMemory]

/-- What a byte read answers. -/
theorem readByte_cases (m : Memory) (a : Nat) :
    (a < Config.memSize ∧ readByte m a = .ok (m.read a)) ∨ (Config.memSize ≤ a ∧ readByte m a = .error a) := by
  by_cases h : a < Config.memSize
  · exact .inl ⟨h, by simp [readByte, inMemory, h]⟩
  · exact .inr ⟨by omega, by simp [readByte, inMemory, h]⟩

/-- What a byte write answers. -/
theorem writeByte_cases (m : Memory) (a : Nat) (v : Byte) :
    (a < Config.memSize ∧ writeByte m a v = .ok (m.write a v)) ∨
      (Config.memSize ≤ a ∧ writeByte m a v = .error a) := by
  by_cases h : a < Config.memSize
  · exact .inl ⟨h, by simp [writeByte, inMemory, h]⟩
  · exact .inr ⟨by omega, by simp [writeByte, inMemory, h]⟩

/-- What a word read answers. -/
theorem readWord_cases (m : Memory) (a : Nat) :
    (a + 1 < Config.memSize ∧ readWord m a = .ok (joinBytes (m.read a) (m.read (a + 1)))) ∨
      (a < Config.memSize ∧ Config.memSize ≤ a + 1 ∧ readWord m a = .error (a + 1)) ∨
      (Config.memSize ≤ a ∧ readWord m a = .error a) := by
  by_cases h : a < Config.memSize
  · by_cases h' : a + 1 < Config.memSize
    · exact .inl ⟨h', by simp [readWord, inMemory, h, h']⟩
    · exact .inr (.inl ⟨h, by omega, by simp [readWord, inMemory, h, h']⟩)
  · exact .inr (.inr ⟨by omega, by simp [readWord, inMemory, h]⟩)

/-- What a word write answers. -/
theorem writeWord_cases (m : Memory) (a : Nat) (v : Word) :
    (a + 1 < Config.memSize ∧
        writeWord m a v = .ok ((m.write a (lowByte v)).write (a + 1) (highByte v))) ∨
      (a < Config.memSize ∧ Config.memSize ≤ a + 1 ∧ writeWord m a v = .error (a + 1)) ∨
      (Config.memSize ≤ a ∧ writeWord m a v = .error a) := by
  by_cases h : a < Config.memSize
  · by_cases h' : a + 1 < Config.memSize
    · exact .inl ⟨h', by simp [writeWord, inMemory, h, h']⟩
    · exact .inr (.inl ⟨h, by omega, by simp [writeWord, inMemory, h, h']⟩)
  · exact .inr (.inr ⟨by omega, by simp [writeWord, inMemory, h]⟩)

/-- A byte write that succeeds keeps the canonical form. -/
theorem writeByte_wf {m m' : Memory} {a : Nat} {v : Byte} (hm : m.wf = true) (h : writeByte m a v = .ok m') :
    m'.wf = true := by
  rcases writeByte_cases m a v with ⟨ha, e⟩ | ⟨_, e⟩ <;> rw [e] at h <;> cases h
  exact Memory.write_wf v ha hm

/-- A word write that succeeds keeps the canonical form. -/
theorem writeWord_wf {m m' : Memory} {a : Nat} {v : Word} (hm : m.wf = true) (h : writeWord m a v = .ok m') :
    m'.wf = true := by
  rcases writeWord_cases m a v with ⟨ha, e⟩ | ⟨_, _, e⟩ | ⟨_, e⟩ <;> rw [e] at h <;> cases h
  exact Memory.write_wf _ ha (Memory.write_wf _ (by omega) hm)

/-- The loader's port keeps the canonical form. -/
theorem storeBytes_wf {m : Memory} (a : Nat) (bs : List Byte) (hm : m.wf = true) :
    (storeBytes m a bs).wf = true := by
  induction bs generalizing m a with
  | nil => exact hm
  | cons v rest ih =>
    unfold storeBytes
    split
    · exact ih _ (Memory.write_wf v ((inMemory_iff a).mp ‹_›) hm)
    · exact hm

/-- The reset state's memory has the canonical form. -/
theorem reset_mem_wf : State.reset.mem.wf = true := rfl

end Sys2Proof.Machine
end

