-- ==== Sys2Proof/Laws/Ops.lean ====
section
/-! SUPPORT. What each shared operation and the step can do, said once: proofs cite these instead of unfolding them. -/

namespace Sys2Proof.Machine

/-- A memory access either goes on with the value or takes AddressOutOfRange. -/
theorem State.access_next_iff {α : Type} (s t : State) (answer : Except Nat α) (k : α → State) :
    s.access answer k = .next t ↔
      (∃ v, answer = .ok v ∧ t = k v) ∨
        ∃ a, answer = .error a ∧ t = s.raiseFault .addressOutOfRange (some a) := by
  cases answer <;> simp [State.access, eq_comm]

theorem binOpSmall_eq (op : AluOp) (a b : RegIdx) (s : State) :
    binOpSmall op a b s =
      .next ((s.writeSmall a (alu op .small (s.readSmall a) (s.readSmall b))).advance 2) := rfl

theorem binOpWide_eq (op : AluOp) (a b : RegIdx) (s : State) :
    binOpWide op a b s =
      .next ((s.writeWide a (alu op .wide (s.readWide a) (s.readWide b))).advance 2) := rfl

theorem binOpImmSmall_eq (op : AluOp) (a b : RegIdx) (v : Byte) (s : State) :
    binOpImmSmall op a b v s =
      .next ((s.writeSmall a (alu op .small (s.readSmall b) v)).advance 3) := rfl

theorem binOpImmWide_eq (op : AluOp) (a b : RegIdx) (v : Word) (s : State) :
    binOpImmWide op a b v s =
      .next ((s.writeWide a (alu op .wide (s.readWide b) v)).advance 4) := rfl

theorem takeInvalidOperation_eq (s : State) :
    takeInvalidOperation s = .next (s.raiseFault .invalidOperation none) := rfl

/-- What a step that answers a next state did: it ran the decoded instruction, or took a decode fault. -/
theorem step_next_cases {s t : State} (h : step s = .next t) :
    s.status = .running ∧
      ((∃ i, decode (fetchWindow s.mem s.pc) = .ok i ∧ exec i s = .next t) ∨
        ∃ e, decode (fetchWindow s.mem s.pc) = .error e ∧ t = s.raiseDecodeError e) := by
  unfold step at h
  split at h
  · cases h
  · next hs =>
    refine ⟨hs, ?_⟩
    split at h
    · next e he => cases h; exact .inr ⟨e, he, rfl⟩
    · next i hi => exact .inl ⟨i, hi, h⟩

/-- The step of a Running core whose window decodes. -/
theorem step_decoded {s : State} {i : Instr} (h : s.status = .running)
    (hd : decode (fetchWindow s.mem s.pc) = .ok i) : step s = exec i s := by
  simp only [step, h, hd]

/-- The step of a Running core whose window does not decode. -/
theorem step_decodeError {s : State} {e : DecodeError} (h : s.status = .running)
    (hd : decode (fetchWindow s.mem s.pc) = .error e) : step s = .next (s.raiseDecodeError e) := by
  simp only [step, h, hd]

/-- The step of a Faulted core. -/
theorem step_faulted {s : State} {r : FaultRecord} (h : s.status = .faulted r) :
    step s = .fault (.noStep r) := by
  simp only [step, h]

end Sys2Proof.Machine
end

