-- ==== Sys2Proof/Laws/PerInstr.lean ====
section
/-! SUPPORT. Statements about every instruction, one lemma for each constructor of Instr.
ShapeRoundTrip: naming the shape of a well-formed instruction under the reference map gives the instruction back
(30_encoding.md R69, R75). -/

namespace Sys2Proof.Laws.ShapeRoundTrip

/-- The instruction of the shape of `i` is `i`. -/
def Statement (i : Instr) : Prop := i.wellFormed = true → Instr.ofShape i.toShape = i

theorem output (r : RegIdx) : Statement (.output r) := fun _ => rfl
theorem outputw (r : RegIdx) : Statement (.outputw r) := fun _ => rfl
theorem loadmem (r : RegIdx) (addr : Addr) : Statement (.loadmem r addr) := fun _ => rfl
theorem loadmemw (r : RegIdx) (addr : Addr) : Statement (.loadmemw r addr) := fun _ => rfl
theorem storemem (r : RegIdx) (addr : Addr) : Statement (.storemem r addr) := fun _ => rfl
theorem storememw (r : RegIdx) (addr : Addr) : Statement (.storememw r addr) := fun _ => rfl
theorem jmp (addr : Addr) : Statement (.jmp addr) := fun _ => rfl
theorem jmpodd (r : RegIdx) (addr : Addr) : Statement (.jmpodd r addr) := fun _ => rfl
theorem copy (a b : RegIdx) : Statement (.copy a b) := fun _ => rfl
theorem not (a b : RegIdx) : Statement (.not a b) := fun _ => rfl
theorem neg (a b : RegIdx) : Statement (.neg a b) := fun _ => rfl
theorem reverse (a b : RegIdx) : Statement (.reverse a b) := fun _ => rfl
theorem numones (a b : RegIdx) : Statement (.numones a b) := fun _ => rfl
theorem numzeros (a b : RegIdx) : Statement (.numzeros a b) := fun _ => rfl
theorem and (a b : RegIdx) : Statement (.and a b) := fun _ => rfl
theorem or (a b : RegIdx) : Statement (.or a b) := fun _ => rfl
theorem xor (a b : RegIdx) : Statement (.xor a b) := fun _ => rfl
theorem shl (a b : RegIdx) : Statement (.shl a b) := fun _ => rfl
theorem shr (a b : RegIdx) : Statement (.shr a b) := fun _ => rfl
theorem shlm (a b : RegIdx) : Statement (.shlm a b) := fun _ => rfl
theorem shrm (a b : RegIdx) : Statement (.shrm a b) := fun _ => rfl
theorem rotl (a b : RegIdx) : Statement (.rotl a b) := fun _ => rfl
theorem rotr (a b : RegIdx) : Statement (.rotr a b) := fun _ => rfl
theorem addc (a b : RegIdx) : Statement (.addc a b) := fun _ => rfl
theorem subc (a b : RegIdx) : Statement (.subc a b) := fun _ => rfl
theorem addm (a b : RegIdx) : Statement (.addm a b) := fun _ => rfl
theorem subm (a b : RegIdx) : Statement (.subm a b) := fun _ => rfl
theorem absdiff (a b : RegIdx) : Statement (.absdiff a b) := fun _ => rfl
theorem mulc (a b : RegIdx) : Statement (.mulc a b) := fun _ => rfl
theorem mulm (a b : RegIdx) : Statement (.mulm a b) := fun _ => rfl
theorem div (a b : RegIdx) : Statement (.div a b) := fun _ => rfl
theorem mod (a b : RegIdx) : Statement (.mod a b) := fun _ => rfl
theorem powm (a b : RegIdx) : Statement (.powm a b) := fun _ => rfl
theorem powc (a b : RegIdx) : Statement (.powc a b) := fun _ => rfl
theorem gt (a b : RegIdx) : Statement (.gt a b) := fun _ => rfl
theorem ge (a b : RegIdx) : Statement (.ge a b) := fun _ => rfl
theorem lt (a b : RegIdx) : Statement (.lt a b) := fun _ => rfl
theorem le (a b : RegIdx) : Statement (.le a b) := fun _ => rfl
theorem invalidSelector (s : Selector) : Statement (.invalidSelector s) := fun _ => rfl
theorem copyW (a b : RegIdx) : Statement (.copyW a b) := fun _ => rfl
theorem notW (a b : RegIdx) : Statement (.notW a b) := fun _ => rfl
theorem negW (a b : RegIdx) : Statement (.negW a b) := fun _ => rfl
theorem reverseW (a b : RegIdx) : Statement (.reverseW a b) := fun _ => rfl
theorem numonesW (a b : RegIdx) : Statement (.numonesW a b) := fun _ => rfl
theorem numzerosW (a b : RegIdx) : Statement (.numzerosW a b) := fun _ => rfl
theorem andW (a b : RegIdx) : Statement (.andW a b) := fun _ => rfl
theorem orW (a b : RegIdx) : Statement (.orW a b) := fun _ => rfl
theorem xorW (a b : RegIdx) : Statement (.xorW a b) := fun _ => rfl
theorem shlW (a b : RegIdx) : Statement (.shlW a b) := fun _ => rfl
theorem shrW (a b : RegIdx) : Statement (.shrW a b) := fun _ => rfl
theorem shlmW (a b : RegIdx) : Statement (.shlmW a b) := fun _ => rfl
theorem shrmW (a b : RegIdx) : Statement (.shrmW a b) := fun _ => rfl
theorem rotlW (a b : RegIdx) : Statement (.rotlW a b) := fun _ => rfl
theorem rotrW (a b : RegIdx) : Statement (.rotrW a b) := fun _ => rfl
theorem addcW (a b : RegIdx) : Statement (.addcW a b) := fun _ => rfl
theorem subcW (a b : RegIdx) : Statement (.subcW a b) := fun _ => rfl
theorem addmW (a b : RegIdx) : Statement (.addmW a b) := fun _ => rfl
theorem submW (a b : RegIdx) : Statement (.submW a b) := fun _ => rfl
theorem absdiffW (a b : RegIdx) : Statement (.absdiffW a b) := fun _ => rfl
theorem mulcW (a b : RegIdx) : Statement (.mulcW a b) := fun _ => rfl
theorem mulmW (a b : RegIdx) : Statement (.mulmW a b) := fun _ => rfl
theorem divW (a b : RegIdx) : Statement (.divW a b) := fun _ => rfl
theorem modW (a b : RegIdx) : Statement (.modW a b) := fun _ => rfl
theorem powmW (a b : RegIdx) : Statement (.powmW a b) := fun _ => rfl
theorem powcW (a b : RegIdx) : Statement (.powcW a b) := fun _ => rfl
theorem gtW (a b : RegIdx) : Statement (.gtW a b) := fun _ => rfl
theorem geW (a b : RegIdx) : Statement (.geW a b) := fun _ => rfl
theorem ltW (a b : RegIdx) : Statement (.ltW a b) := fun _ => rfl
theorem leW (a b : RegIdx) : Statement (.leW a b) := fun _ => rfl
theorem invalidSelectorW (s : Selector) : Statement (.invalidSelectorW s) := fun _ => rfl
theorem copyI (a b : RegIdx) (v : Byte) : Statement (.copyI a b v) := fun _ => rfl
theorem notI (a b : RegIdx) (v : Byte) : Statement (.notI a b v) := fun _ => rfl
theorem negI (a b : RegIdx) (v : Byte) : Statement (.negI a b v) := fun _ => rfl
theorem reverseI (a b : RegIdx) (v : Byte) : Statement (.reverseI a b v) := fun _ => rfl
theorem numonesI (a b : RegIdx) (v : Byte) : Statement (.numonesI a b v) := fun _ => rfl
theorem numzerosI (a b : RegIdx) (v : Byte) : Statement (.numzerosI a b v) := fun _ => rfl
theorem andI (a b : RegIdx) (v : Byte) : Statement (.andI a b v) := fun _ => rfl
theorem orI (a b : RegIdx) (v : Byte) : Statement (.orI a b v) := fun _ => rfl
theorem xorI (a b : RegIdx) (v : Byte) : Statement (.xorI a b v) := fun _ => rfl
theorem shlI (a b : RegIdx) (v : Byte) : Statement (.shlI a b v) := fun _ => rfl
theorem shrI (a b : RegIdx) (v : Byte) : Statement (.shrI a b v) := fun _ => rfl
theorem shlmI (a b : RegIdx) (v : Byte) : Statement (.shlmI a b v) := fun _ => rfl
theorem shrmI (a b : RegIdx) (v : Byte) : Statement (.shrmI a b v) := fun _ => rfl
theorem rotlI (a b : RegIdx) (v : Byte) : Statement (.rotlI a b v) := fun _ => rfl
theorem rotrI (a b : RegIdx) (v : Byte) : Statement (.rotrI a b v) := fun _ => rfl
theorem addcI (a b : RegIdx) (v : Byte) : Statement (.addcI a b v) := fun _ => rfl
theorem subcI (a b : RegIdx) (v : Byte) : Statement (.subcI a b v) := fun _ => rfl
theorem addmI (a b : RegIdx) (v : Byte) : Statement (.addmI a b v) := fun _ => rfl
theorem submI (a b : RegIdx) (v : Byte) : Statement (.submI a b v) := fun _ => rfl
theorem absdiffI (a b : RegIdx) (v : Byte) : Statement (.absdiffI a b v) := fun _ => rfl
theorem mulcI (a b : RegIdx) (v : Byte) : Statement (.mulcI a b v) := fun _ => rfl
theorem mulmI (a b : RegIdx) (v : Byte) : Statement (.mulmI a b v) := fun _ => rfl
theorem divI (a b : RegIdx) (v : Byte) : Statement (.divI a b v) := fun _ => rfl
theorem modI (a b : RegIdx) (v : Byte) : Statement (.modI a b v) := fun _ => rfl
theorem powmI (a b : RegIdx) (v : Byte) : Statement (.powmI a b v) := fun _ => rfl
theorem powcI (a b : RegIdx) (v : Byte) : Statement (.powcI a b v) := fun _ => rfl
theorem gtI (a b : RegIdx) (v : Byte) : Statement (.gtI a b v) := fun _ => rfl
theorem geI (a b : RegIdx) (v : Byte) : Statement (.geI a b v) := fun _ => rfl
theorem ltI (a b : RegIdx) (v : Byte) : Statement (.ltI a b v) := fun _ => rfl
theorem leI (a b : RegIdx) (v : Byte) : Statement (.leI a b v) := fun _ => rfl
theorem invalidSelectorI (s : Selector) : Statement (.invalidSelectorI s) := fun _ => rfl
theorem copyWi (a b : RegIdx) (v : Word) : Statement (.copyWi a b v) := fun _ => rfl
theorem notWi (a b : RegIdx) (v : Word) : Statement (.notWi a b v) := fun _ => rfl
theorem negWi (a b : RegIdx) (v : Word) : Statement (.negWi a b v) := fun _ => rfl
theorem reverseWi (a b : RegIdx) (v : Word) : Statement (.reverseWi a b v) := fun _ => rfl
theorem numonesWi (a b : RegIdx) (v : Word) : Statement (.numonesWi a b v) := fun _ => rfl
theorem numzerosWi (a b : RegIdx) (v : Word) : Statement (.numzerosWi a b v) := fun _ => rfl
theorem andWi (a b : RegIdx) (v : Word) : Statement (.andWi a b v) := fun _ => rfl
theorem orWi (a b : RegIdx) (v : Word) : Statement (.orWi a b v) := fun _ => rfl
theorem xorWi (a b : RegIdx) (v : Word) : Statement (.xorWi a b v) := fun _ => rfl
theorem shlWi (a b : RegIdx) (v : Word) : Statement (.shlWi a b v) := fun _ => rfl
theorem shrWi (a b : RegIdx) (v : Word) : Statement (.shrWi a b v) := fun _ => rfl
theorem shlmWi (a b : RegIdx) (v : Word) : Statement (.shlmWi a b v) := fun _ => rfl
theorem shrmWi (a b : RegIdx) (v : Word) : Statement (.shrmWi a b v) := fun _ => rfl
theorem rotlWi (a b : RegIdx) (v : Word) : Statement (.rotlWi a b v) := fun _ => rfl
theorem rotrWi (a b : RegIdx) (v : Word) : Statement (.rotrWi a b v) := fun _ => rfl
theorem addcWi (a b : RegIdx) (v : Word) : Statement (.addcWi a b v) := fun _ => rfl
theorem subcWi (a b : RegIdx) (v : Word) : Statement (.subcWi a b v) := fun _ => rfl
theorem addmWi (a b : RegIdx) (v : Word) : Statement (.addmWi a b v) := fun _ => rfl
theorem submWi (a b : RegIdx) (v : Word) : Statement (.submWi a b v) := fun _ => rfl
theorem absdiffWi (a b : RegIdx) (v : Word) : Statement (.absdiffWi a b v) := fun _ => rfl
theorem mulcWi (a b : RegIdx) (v : Word) : Statement (.mulcWi a b v) := fun _ => rfl
theorem mulmWi (a b : RegIdx) (v : Word) : Statement (.mulmWi a b v) := fun _ => rfl
theorem divWi (a b : RegIdx) (v : Word) : Statement (.divWi a b v) := fun _ => rfl
theorem modWi (a b : RegIdx) (v : Word) : Statement (.modWi a b v) := fun _ => rfl
theorem powmWi (a b : RegIdx) (v : Word) : Statement (.powmWi a b v) := fun _ => rfl
theorem powcWi (a b : RegIdx) (v : Word) : Statement (.powcWi a b v) := fun _ => rfl
theorem gtWi (a b : RegIdx) (v : Word) : Statement (.gtWi a b v) := fun _ => rfl
theorem geWi (a b : RegIdx) (v : Word) : Statement (.geWi a b v) := fun _ => rfl
theorem ltWi (a b : RegIdx) (v : Word) : Statement (.ltWi a b v) := fun _ => rfl
theorem leWi (a b : RegIdx) (v : Word) : Statement (.leWi a b v) := fun _ => rfl
theorem invalidSelectorWi (s : Selector) : Statement (.invalidSelectorWi s) := fun _ => rfl

end Sys2Proof.Laws.ShapeRoundTrip
end

