-- ==== Sys2Proof/Tests/Slice0.lean ====
section
/-! SUPPORT. Tests. Every expected value is from spec/ (95_test_vectors.md, or the encoding tables of 30_encoding.md),
none from the model. At the end, a witness for each clause of each statement that has hypotheses. -/

namespace Sys2Proof.Tests

open Sys2Proof.Machine Sys2Proof.Certificates

/-! ### Helpers -/

/-- The reset core with `bytes` in memory at `pc`, about to run them. -/
def at_ (pc : Nat) (bytes : List Byte) : State :=
  { State.reset with pc := pc, mem := storeBytes [] pc bytes }

/-- The state one step later, where there is one. -/
def after (s : State) : Option State := nextState (step s)

/-- What one step does to pc and status. -/
def outcome (s : State) : Option (Nat × Status) := (after s).map fun t => (t.pc, t.status)

/-- The bytes decode to the instruction, and it encodes to them. -/
def spelled (rows : List (List Byte × Instr)) : Bool :=
  rows.all fun row => decide ((decode row.1).toOption = some row.2) && decide (encode row.2 = row.1)

/-! ### Well-formedness -/

theorem test_assigned_selector_is_not_a_reserved_row :
    (Instr.invalidSelector 29).wellFormed = false ∧ (Instr.invalidSelectorW 0).wellFormed = false ∧
    (Instr.invalidSelectorI 17).wellFormed = false ∧ (Instr.invalidSelectorWi 29).wellFormed = false := by decide

theorem test_unassigned_selector_is_a_reserved_row :
    (Instr.invalidSelector 30).wellFormed = true ∧ (Instr.invalidSelectorWi 31).wellFormed = true := by decide

theorem test_unassigned_selector_is_no_operation :
    (Shape.binOpSmall 30 0 0).wellFormed = false ∧ (Shape.binOpWide 31 0 0).wellFormed = false ∧
    (Shape.binOpImmSmall 31 0 0 0).wellFormed = false ∧ (Shape.binOpImmWide 30 0 0 0).wellFormed = false ∧
    (Shape.invalidSelector .binOpSmall 29).wellFormed = false := by decide

/-! ### Decoding: every constructor, its bytes written out from R62 to R67 and R69 -/

theorem test_decode_simple : spelled [
    ([0x00], .output 0), ([0x1F], .outputw 15), ([0x2A, 0x34, 0x12], .loadmem 10 0x1234),
    ([0x32, 0xFE, 0xFF], .loadmemw 2 0xFFFE), ([0x44, 0xFF, 0xFF], .storemem 4 0xFFFF),
    ([0x51, 0x01, 0x01], .storememw 1 0x0101), ([0x60, 0xCD, 0xAB], .jmp 0xABCD),
    ([0x7A, 0x00, 0x00], .jmpodd 10 0)] = true := by decide

theorem test_decode_binOpSmall : spelled [
    ([0x80, 0x3C], .copy 3 12), ([0x81, 0x3C], .not 3 12),
    ([0x82, 0x3C], .neg 3 12), ([0x83, 0x3C], .reverse 3 12),
    ([0x84, 0x3C], .numones 3 12), ([0x85, 0x3C], .numzeros 3 12),
    ([0x86, 0x3C], .and 3 12), ([0x87, 0x3C], .or 3 12),
    ([0x88, 0x3C], .xor 3 12), ([0x89, 0x3C], .shl 3 12),
    ([0x8A, 0x3C], .shr 3 12), ([0x8B, 0x3C], .shlm 3 12),
    ([0x8C, 0x3C], .shrm 3 12), ([0x8D, 0x3C], .rotl 3 12),
    ([0x8E, 0x3C], .rotr 3 12), ([0x8F, 0x3C], .addc 3 12),
    ([0x90, 0x3C], .subc 3 12), ([0x91, 0x3C], .addm 3 12),
    ([0x92, 0x3C], .subm 3 12), ([0x93, 0x3C], .absdiff 3 12),
    ([0x94, 0x3C], .mulc 3 12), ([0x95, 0x3C], .mulm 3 12),
    ([0x96, 0x3C], .div 3 12), ([0x97, 0x3C], .mod 3 12),
    ([0x98, 0x3C], .powm 3 12), ([0x99, 0x3C], .powc 3 12),
    ([0x9A, 0x3C], .gt 3 12), ([0x9B, 0x3C], .ge 3 12),
    ([0x9C, 0x3C], .lt 3 12), ([0x9D, 0x3C], .le 3 12)] = true := by decide

theorem test_decode_binOpWide : spelled [
    ([0xA0, 0xF0], .copyW 15 0), ([0xA1, 0xF0], .notW 15 0),
    ([0xA2, 0xF0], .negW 15 0), ([0xA3, 0xF0], .reverseW 15 0),
    ([0xA4, 0xF0], .numonesW 15 0), ([0xA5, 0xF0], .numzerosW 15 0),
    ([0xA6, 0xF0], .andW 15 0), ([0xA7, 0xF0], .orW 15 0),
    ([0xA8, 0xF0], .xorW 15 0), ([0xA9, 0xF0], .shlW 15 0),
    ([0xAA, 0xF0], .shrW 15 0), ([0xAB, 0xF0], .shlmW 15 0),
    ([0xAC, 0xF0], .shrmW 15 0), ([0xAD, 0xF0], .rotlW 15 0),
    ([0xAE, 0xF0], .rotrW 15 0), ([0xAF, 0xF0], .addcW 15 0),
    ([0xB0, 0xF0], .subcW 15 0), ([0xB1, 0xF0], .addmW 15 0),
    ([0xB2, 0xF0], .submW 15 0), ([0xB3, 0xF0], .absdiffW 15 0),
    ([0xB4, 0xF0], .mulcW 15 0), ([0xB5, 0xF0], .mulmW 15 0),
    ([0xB6, 0xF0], .divW 15 0), ([0xB7, 0xF0], .modW 15 0),
    ([0xB8, 0xF0], .powmW 15 0), ([0xB9, 0xF0], .powcW 15 0),
    ([0xBA, 0xF0], .gtW 15 0), ([0xBB, 0xF0], .geW 15 0),
    ([0xBC, 0xF0], .ltW 15 0), ([0xBD, 0xF0], .leW 15 0)] = true := by decide

theorem test_decode_binOpImmSmall : spelled [
    ([0xC0, 0x50, 0xFF], .copyI 5 0 0xFF), ([0xC1, 0x50, 0xFF], .notI 5 0 0xFF),
    ([0xC2, 0x50, 0xFF], .negI 5 0 0xFF), ([0xC3, 0x50, 0xFF], .reverseI 5 0 0xFF),
    ([0xC4, 0x50, 0xFF], .numonesI 5 0 0xFF), ([0xC5, 0x50, 0xFF], .numzerosI 5 0 0xFF),
    ([0xC6, 0x50, 0xFF], .andI 5 0 0xFF), ([0xC7, 0x50, 0xFF], .orI 5 0 0xFF),
    ([0xC8, 0x50, 0xFF], .xorI 5 0 0xFF), ([0xC9, 0x50, 0xFF], .shlI 5 0 0xFF),
    ([0xCA, 0x50, 0xFF], .shrI 5 0 0xFF), ([0xCB, 0x50, 0xFF], .shlmI 5 0 0xFF),
    ([0xCC, 0x50, 0xFF], .shrmI 5 0 0xFF), ([0xCD, 0x50, 0xFF], .rotlI 5 0 0xFF),
    ([0xCE, 0x50, 0xFF], .rotrI 5 0 0xFF), ([0xCF, 0x50, 0xFF], .addcI 5 0 0xFF),
    ([0xD0, 0x50, 0xFF], .subcI 5 0 0xFF), ([0xD1, 0x50, 0xFF], .addmI 5 0 0xFF),
    ([0xD2, 0x50, 0xFF], .submI 5 0 0xFF), ([0xD3, 0x50, 0xFF], .absdiffI 5 0 0xFF),
    ([0xD4, 0x50, 0xFF], .mulcI 5 0 0xFF), ([0xD5, 0x50, 0xFF], .mulmI 5 0 0xFF),
    ([0xD6, 0x50, 0xFF], .divI 5 0 0xFF), ([0xD7, 0x50, 0xFF], .modI 5 0 0xFF),
    ([0xD8, 0x50, 0xFF], .powmI 5 0 0xFF), ([0xD9, 0x50, 0xFF], .powcI 5 0 0xFF),
    ([0xDA, 0x50, 0xFF], .gtI 5 0 0xFF), ([0xDB, 0x50, 0xFF], .geI 5 0 0xFF),
    ([0xDC, 0x50, 0xFF], .ltI 5 0 0xFF), ([0xDD, 0x50, 0xFF], .leI 5 0 0xFF)] = true := by decide

theorem test_decode_binOpImmWide : spelled [
    ([0xE0, 0x25, 0x2C, 0x01], .copyWi 2 5 300), ([0xE1, 0x25, 0x2C, 0x01], .notWi 2 5 300),
    ([0xE2, 0x25, 0x2C, 0x01], .negWi 2 5 300), ([0xE3, 0x25, 0x2C, 0x01], .reverseWi 2 5 300),
    ([0xE4, 0x25, 0x2C, 0x01], .numonesWi 2 5 300), ([0xE5, 0x25, 0x2C, 0x01], .numzerosWi 2 5 300),
    ([0xE6, 0x25, 0x2C, 0x01], .andWi 2 5 300), ([0xE7, 0x25, 0x2C, 0x01], .orWi 2 5 300),
    ([0xE8, 0x25, 0x2C, 0x01], .xorWi 2 5 300), ([0xE9, 0x25, 0x2C, 0x01], .shlWi 2 5 300),
    ([0xEA, 0x25, 0x2C, 0x01], .shrWi 2 5 300), ([0xEB, 0x25, 0x2C, 0x01], .shlmWi 2 5 300),
    ([0xEC, 0x25, 0x2C, 0x01], .shrmWi 2 5 300), ([0xED, 0x25, 0x2C, 0x01], .rotlWi 2 5 300),
    ([0xEE, 0x25, 0x2C, 0x01], .rotrWi 2 5 300), ([0xEF, 0x25, 0x2C, 0x01], .addcWi 2 5 300),
    ([0xF0, 0x25, 0x2C, 0x01], .subcWi 2 5 300), ([0xF1, 0x25, 0x2C, 0x01], .addmWi 2 5 300),
    ([0xF2, 0x25, 0x2C, 0x01], .submWi 2 5 300), ([0xF3, 0x25, 0x2C, 0x01], .absdiffWi 2 5 300),
    ([0xF4, 0x25, 0x2C, 0x01], .mulcWi 2 5 300), ([0xF5, 0x25, 0x2C, 0x01], .mulmWi 2 5 300),
    ([0xF6, 0x25, 0x2C, 0x01], .divWi 2 5 300), ([0xF7, 0x25, 0x2C, 0x01], .modWi 2 5 300),
    ([0xF8, 0x25, 0x2C, 0x01], .powmWi 2 5 300), ([0xF9, 0x25, 0x2C, 0x01], .powcWi 2 5 300),
    ([0xFA, 0x25, 0x2C, 0x01], .gtWi 2 5 300), ([0xFB, 0x25, 0x2C, 0x01], .geWi 2 5 300),
    ([0xFC, 0x25, 0x2C, 0x01], .ltWi 2 5 300), ([0xFD, 0x25, 0x2C, 0x01], .leWi 2 5 300)] = true := by decide

theorem test_decode_illegal : spelled [
    ([0x9E], .invalidSelector 30), ([0x9F], .invalidSelector 31), ([0xBE], .invalidSelectorW 30),
    ([0xBF], .invalidSelectorW 31), ([0xDE], .invalidSelectorI 30), ([0xDF], .invalidSelectorI 31),
    ([0xFE], .invalidSelectorWi 30), ([0xFF], .invalidSelectorWi 31)] = true := by decide

/-- L2-D2: the low nibble of a jump is ignored. -/
theorem test_decode_jump_nibble : (decode [0x6F, 0xCD, 0xAB]).toOption = some (.jmp 0xABCD) := by decide

/-- R73: no opcode byte; a legal opcode byte whose instruction is cut off; an illegal one, decided alone. -/
theorem test_decode_rejects_by_name :
    decode [] = .error .noOpcodeByte ∧ decode [0x30, 0xFF] = .error .truncated ∧
    decode [0xE0, 0x00, 0x00] = .error .truncated ∧ decode [0xFF] = .ok (.invalidSelectorWi 31) := by decide

/-- L2-D1: the first and last opcode byte of each of the twelve shapes. -/
theorem test_classify_range_ends :
    [0x00, 0x0F, 0x10, 0x1F, 0x20, 0x2F, 0x30, 0x3F, 0x40, 0x4F, 0x50, 0x5F, 0x60, 0x6F, 0x70, 0x7F,
     0x80, 0x9F, 0xA0, 0xBF, 0xC0, 0xDF, 0xE0, 0xFF].map classify =
    [.output, .output, .outputWide, .outputWide, .loadMem, .loadMem, .loadMemWide, .loadMemWide,
     .storeMem, .storeMem, .storeMemWide, .storeMemWide, .jump, .jump, .jumpIfOdd, .jumpIfOdd,
     .arith .binOpSmall, .arith .binOpSmall, .arith .binOpWide, .arith .binOpWide,
     .arith .binOpImmSmall, .arith .binOpImmSmall, .arith .binOpImmWide, .arith .binOpImmWide] := by decide

/-- The table's numbering: the first byte is bits 7..0. The row of addm.wi has 32 bits, and its bytes are L1-5's. -/
theorem test_table_word :
    decodeTableWord 32 0x012C25F1 = some (.addmWi 2 5 300) ∧ decodeTableWord 8 0x9F = some (.invalidSelector 31) := by
  decide

theorem test_table_word_runs_next :
    (after (State.reset.withFetchWord 24 0x2A69C0)).map (fun t => (t.small[6], t.pc)) = some (42, 3) := by
  decide

/-- R77: the bytes of the pseudo-instructions. -/
theorem test_pseudo_bytes :
    encode (expand 0 (.li 1 42)) = [0xC0, 0x10, 0x2A] ∧ encode (expand 0 (.liW 1 0x1234)) = [0xE0, 0x10, 0x34, 0x12] ∧
    encode (expand 0 (.mov 4 5)) = [0x80, 0x45] ∧ encode (expand 0 (.movW 4 5)) = [0xA0, 0x45] ∧
    encode (expand 0 .nop) = [0x80, 0x00] ∧ encode (expand 0 (.inc 3)) = [0xD1, 0x33, 0x01] ∧
    encode (expand 0 (.dec 1)) = [0xD2, 0x11, 0x01] ∧ encode (expand 0x000A .halt) = [0x60, 0x0A, 0x00] := by
  decide

/-! ### The ALU: tables L2-A -/

/-- The input pairs heading the columns of the small table. -/
def smallInputs : List (Byte × Byte) :=
  [(0x00, 0x00), (0xFF, 0xFF), (0xFF, 0x01), (0x01, 0xFF), (0x81, 0x08),
   (0x81, 0x09), (0x03, 0x0A), (0x0A, 0x03), (0xC8, 0x64), (0x10, 0x10)]

/-- The input pairs heading the columns of the wide table. -/
def wideInputs : List (Word × Word) :=
  [(0x0000, 0x0000), (0xFFFF, 0xFFFF), (0xFFFF, 0x0001), (0x0001, 0xFFFF), (0x1234, 0x0010),
   (0x8001, 0x0011), (0x012C, 0x012C), (0x9C40, 0x7530), (0x0002, 0x000F), (0x1234, 0x0004)]

/-- An operation over the columns of both tables. -/
def aluRow (op : AluOp) : List Byte × List Word :=
  (smallInputs.map fun x => alu op .small x.1 x.2, wideInputs.map fun x => alu op .wide x.1 x.2)

theorem test_alu_copy : aluRow .copy =
    ([0x00, 0xFF, 0x01, 0xFF, 0x08, 0x09, 0x0A, 0x03, 0x64, 0x10],
     [0x0000, 0xFFFF, 0x0001, 0xFFFF, 0x0010, 0x0011, 0x012C, 0x7530, 0x000F, 0x0004]) := by
  decide

theorem test_alu_not : aluRow .not =
    ([0xFF, 0x00, 0xFE, 0x00, 0xF7, 0xF6, 0xF5, 0xFC, 0x9B, 0xEF],
     [0xFFFF, 0x0000, 0xFFFE, 0x0000, 0xFFEF, 0xFFEE, 0xFED3, 0x8ACF, 0xFFF0, 0xFFFB]) := by
  decide

theorem test_alu_neg : aluRow .neg =
    ([0xFF, 0x00, 0xFE, 0x00, 0xF7, 0xF6, 0xF5, 0xFC, 0x9B, 0xEF],
     [0xFFFF, 0x0000, 0xFFFE, 0x0000, 0xFFEF, 0xFFEE, 0xFED3, 0x8ACF, 0xFFF0, 0xFFFB]) := by
  decide

theorem test_alu_reverse : aluRow .reverse =
    ([0x00, 0xFF, 0x80, 0xFF, 0x10, 0x90, 0x50, 0xC0, 0x26, 0x08],
     [0x0000, 0xFFFF, 0x8000, 0xFFFF, 0x0800, 0x8800, 0x3480, 0x0CAE, 0xF000, 0x2000]) := by
  decide

theorem test_alu_numones : aluRow .numones =
    ([0x00, 0xFF, 0x01, 0xFF, 0x08, 0x09, 0x0A, 0x03, 0x64, 0x10],
     [0x0000, 0xFFFF, 0x0100, 0xFFFF, 0x1000, 0x1100, 0x2C01, 0x3075, 0x0F00, 0x0400]) := by
  decide

theorem test_alu_numzeros : aluRow .numzeros =
    ([0x00, 0x08, 0x01, 0x08, 0x01, 0x02, 0x02, 0x02, 0x03, 0x01],
     [0x0000, 0x0010, 0x0001, 0x0010, 0x0001, 0x0002, 0x0004, 0x0007, 0x0004, 0x0001]) := by
  decide

theorem test_alu_and : aluRow .and =
    ([0x00, 0xFF, 0x01, 0x01, 0x00, 0x01, 0x02, 0x02, 0x40, 0x10],
     [0x0000, 0xFFFF, 0x0001, 0x0001, 0x0010, 0x0001, 0x012C, 0x1400, 0x0002, 0x0004]) := by
  decide

theorem test_alu_or : aluRow .or =
    ([0x00, 0xFF, 0xFF, 0xFF, 0x89, 0x89, 0x0B, 0x0B, 0xEC, 0x10],
     [0x0000, 0xFFFF, 0xFFFF, 0xFFFF, 0x1234, 0x8011, 0x012C, 0xFD70, 0x000F, 0x1234]) := by
  decide

theorem test_alu_xor : aluRow .xor =
    ([0x00, 0x00, 0xFE, 0xFE, 0x89, 0x88, 0x09, 0x09, 0xAC, 0x00],
     [0x0000, 0x0000, 0xFFFE, 0xFFFE, 0x1224, 0x8010, 0x0000, 0xE970, 0x000D, 0x1230]) := by
  decide

theorem test_alu_shl : aluRow .shl =
    ([0x00, 0x00, 0xFE, 0x00, 0x00, 0x00, 0x00, 0x50, 0x00, 0x00],
     [0x0000, 0x0000, 0xFFFE, 0x0000, 0x0000, 0x0000, 0x0000, 0x0000, 0x0000, 0x2340]) := by
  decide

theorem test_alu_shr : aluRow .shr =
    ([0x00, 0x00, 0x7F, 0x00, 0x00, 0x00, 0x00, 0x01, 0x00, 0x00],
     [0x0000, 0x0000, 0x7FFF, 0x0000, 0x0000, 0x0000, 0x0000, 0x0000, 0x0000, 0x0123]) := by
  decide

theorem test_alu_shlm : aluRow .shlm =
    ([0x00, 0x80, 0xFE, 0x80, 0x81, 0x02, 0x0C, 0x50, 0x80, 0x10],
     [0x0000, 0x8000, 0xFFFE, 0x8000, 0x1234, 0x0002, 0xC000, 0x9C40, 0x0000, 0x2340]) := by
  decide

theorem test_alu_shrm : aluRow .shrm =
    ([0x00, 0x01, 0x7F, 0x00, 0x81, 0x40, 0x00, 0x01, 0x0C, 0x10],
     [0x0000, 0x0001, 0x7FFF, 0x0000, 0x1234, 0x4000, 0x0000, 0x9C40, 0x0000, 0x0123]) := by
  decide

theorem test_alu_rotl : aluRow .rotl =
    ([0x00, 0xFF, 0xFF, 0x80, 0x81, 0x03, 0x0C, 0x50, 0x8C, 0x10],
     [0x0000, 0xFFFF, 0xFFFF, 0x8000, 0x1234, 0x0003, 0xC012, 0x9C40, 0x0001, 0x2341]) := by
  decide

theorem test_alu_rotr : aluRow .rotr =
    ([0x00, 0xFF, 0xFF, 0x02, 0x81, 0xC0, 0xC0, 0x41, 0x8C, 0x10],
     [0x0000, 0xFFFF, 0xFFFF, 0x0002, 0x1234, 0xC000, 0x12C0, 0x9C40, 0x0004, 0x4123]) := by
  decide

theorem test_alu_addc : aluRow .addc =
    ([0x00, 0xFF, 0xFF, 0xFF, 0x89, 0x8A, 0x0D, 0x0D, 0xFF, 0x20],
     [0x0000, 0xFFFF, 0xFFFF, 0xFFFF, 0x1244, 0x8012, 0x0258, 0xFFFF, 0x0011, 0x1238]) := by
  decide

theorem test_alu_subc : aluRow .subc =
    ([0x00, 0x00, 0xFE, 0x00, 0x79, 0x78, 0x00, 0x07, 0x64, 0x00],
     [0x0000, 0x0000, 0xFFFE, 0x0000, 0x1224, 0x7FF0, 0x0000, 0x2710, 0x0000, 0x1230]) := by
  decide

theorem test_alu_addm : aluRow .addm =
    ([0x00, 0xFE, 0x00, 0x00, 0x89, 0x8A, 0x0D, 0x0D, 0x2C, 0x20],
     [0x0000, 0xFFFE, 0x0000, 0x0000, 0x1244, 0x8012, 0x0258, 0x1170, 0x0011, 0x1238]) := by
  decide

theorem test_alu_subm : aluRow .subm =
    ([0x00, 0x00, 0xFE, 0x02, 0x79, 0x78, 0xF9, 0x07, 0x64, 0x00],
     [0x0000, 0x0000, 0xFFFE, 0x0002, 0x1224, 0x7FF0, 0x0000, 0x2710, 0xFFF3, 0x1230]) := by
  decide

theorem test_alu_absdiff : aluRow .absdiff =
    ([0x00, 0x00, 0xFE, 0xFE, 0x79, 0x78, 0x07, 0x07, 0x64, 0x00],
     [0x0000, 0x0000, 0xFFFE, 0xFFFE, 0x1224, 0x7FF0, 0x0000, 0x2710, 0x000D, 0x1230]) := by
  decide

theorem test_alu_mulc : aluRow .mulc =
    ([0x00, 0xFF, 0xFF, 0xFF, 0xFF, 0xFF, 0x1E, 0x1E, 0xFF, 0xFF],
     [0x0000, 0xFFFF, 0xFFFF, 0xFFFF, 0xFFFF, 0xFFFF, 0xFFFF, 0xFFFF, 0x001E, 0x48D0]) := by
  decide

theorem test_alu_mulm : aluRow .mulm =
    ([0x00, 0x01, 0xFF, 0xFF, 0x08, 0x89, 0x1E, 0x1E, 0x20, 0x00],
     [0x0000, 0x0001, 0xFFFF, 0xFFFF, 0x2340, 0x8011, 0x5F90, 0x8C00, 0x001E, 0x48D0]) := by
  decide

theorem test_alu_div : aluRow .div =
    ([0x00, 0x01, 0xFF, 0x00, 0x10, 0x0E, 0x00, 0x03, 0x02, 0x01],
     [0x0000, 0x0001, 0xFFFF, 0x0000, 0x0123, 0x0787, 0x0001, 0x0001, 0x0000, 0x048D]) := by
  decide

theorem test_alu_mod : aluRow .mod =
    ([0x00, 0x00, 0x00, 0x01, 0x01, 0x03, 0x03, 0x01, 0x00, 0x00],
     [0x0000, 0x0000, 0x0000, 0x0001, 0x0004, 0x000A, 0x0000, 0x2710, 0x0002, 0x0000]) := by
  decide

theorem test_alu_powm : aluRow .powm =
    ([0x01, 0xFF, 0xFF, 0x01, 0x01, 0x81, 0xA9, 0xE8, 0x00, 0x00],
     [0x0001, 0xFFFF, 0xFFFF, 0x0001, 0x0000, 0x8001, 0x0000, 0x0000, 0x8000, 0x9100]) := by
  decide

theorem test_alu_powc : aluRow .powc =
    ([0x01, 0xFF, 0xFF, 0x01, 0xFF, 0xFF, 0xFF, 0xFF, 0xFF, 0xFF],
     [0x0001, 0xFFFF, 0xFFFF, 0x0001, 0xFFFF, 0xFFFF, 0xFFFF, 0xFFFF, 0x8000, 0xFFFF]) := by
  decide +kernel

theorem test_alu_gt : aluRow .gt =
    ([0x00, 0x00, 0x01, 0x00, 0x01, 0x01, 0x00, 0x01, 0x01, 0x00],
     [0x0000, 0x0000, 0x0001, 0x0000, 0x0001, 0x0001, 0x0000, 0x0001, 0x0000, 0x0001]) := by
  decide

theorem test_alu_ge : aluRow .ge =
    ([0x01, 0x01, 0x01, 0x00, 0x01, 0x01, 0x00, 0x01, 0x01, 0x01],
     [0x0001, 0x0001, 0x0001, 0x0000, 0x0001, 0x0001, 0x0001, 0x0001, 0x0000, 0x0001]) := by
  decide

theorem test_alu_lt : aluRow .lt =
    ([0x00, 0x00, 0x00, 0x01, 0x00, 0x00, 0x01, 0x00, 0x00, 0x00],
     [0x0000, 0x0000, 0x0000, 0x0001, 0x0000, 0x0000, 0x0000, 0x0000, 0x0001, 0x0000]) := by
  decide

theorem test_alu_le : aluRow .le =
    ([0x01, 0x01, 0x00, 0x01, 0x00, 0x00, 0x01, 0x00, 0x00, 0x01],
     [0x0001, 0x0001, 0x0000, 0x0001, 0x0000, 0x0000, 0x0001, 0x0000, 0x0001, 0x0000]) := by
  decide

theorem test_alu_eq : aluRow .eq =
    ([0x01, 0x01, 0x00, 0x00, 0x00, 0x00, 0x00, 0x00, 0x00, 0x01],
     [0x0001, 0x0001, 0x0000, 0x0000, 0x0000, 0x0000, 0x0001, 0x0000, 0x0000, 0x0000]) := by
  decide

theorem test_alu_ne : aluRow .ne =
    ([0x00, 0x00, 0x01, 0x01, 0x01, 0x01, 0x01, 0x01, 0x01, 0x00],
     [0x0000, 0x0000, 0x0001, 0x0001, 0x0001, 0x0001, 0x0000, 0x0001, 0x0001, 0x0001]) := by
  decide

/-- "Further ALU corner cases" of 95_test_vectors.md: powers, 0^0 among them (decision D10). -/
theorem test_alu_power_corners :
    [alu .powm .small 0 0, alu .powc .small 0 0, alu .powm .small 0 5, alu .powc .small 2 7, alu .powc .small 2 8,
      alu .powm .small 3 5, alu .powc .small 1 255] = [1, 1, 0, 128, 255, 243, 1] ∧
    [alu .powm .wide 0 0, alu .powc .wide 0 0, alu .powc .wide 0 65535, alu .powc .wide 2 15, alu .powc .wide 2 16,
      alu .powm .wide 3 10, alu .powm .wide 2 16] = [1, 1, 0, 32768, 65535, 59049, 0] := by decide +kernel

/-- The same list: shifts, rotates, reverse and division at their edges. -/
theorem test_alu_shift_and_division_corners :
    [alu .shl .wide 1 15, alu .shl .wide 1 300, alu .shr .wide 0x8000 15, alu .shr .wide 0xFFFF 16,
      alu .shrm .wide 0x8000 16, alu .shrm .wide 0x8000 31, alu .rotr .wide 0x1234 20, alu .rotl .wide 0x1234 16,
      alu .reverse .wide 0 0x1234, alu .div .wide 65535 2, alu .mod .wide 65535 256] =
    [0x8000, 0, 1, 0, 0x8000, 1, 0x4123, 0x1234, 0x2C48, 32767, 255] := by decide

/-! ### One step of each family: tables L2-O, L2-M, L2-B, L2-X, L2-F -/

theorem test_output :
    (after ((at_ 0 [0x00]).writeSmall 0 0xFF)).map (fun t => (t.out, t.pc)) = some ([.byte 255], 1) := by decide

theorem test_outputw :
    (after ((at_ 0 [0x1F]).writeWide 15 0xFFFF)).map (fun t => (t.out, t.pc)) = some ([.word 65535], 1) := by
  decide

theorem test_loadmem_last_byte :
    (after ((at_ 0 [0x22, 0xFF, 0xFF]).withMem (storeBytes [(0xFFFF, 0x5A)] 0 [0x22, 0xFF, 0xFF]))).map
      (fun t => (t.small[2], t.pc)) = some (0x5A, 3) := by decide

theorem test_loadmemw_last_word :
    (after ((at_ 0 []).withMem (storeBytes [(0xFFFE, 0x34), (0xFFFF, 0x12)] 0 [0x32, 0xFE, 0xFF]))).map
      (fun t => (t.wide[2], t.pc)) = some (0x1234, 3) := by decide

theorem test_loadmemw_beyond_memory :
    (after ((at_ 0x40 [0x32, 0xFF, 0xFF]).writeWide 2 0x7777)).map (fun t => (t.wide[2], t.pc, t.status)) =
      some (0x7777, 0x40, .faulted ⟨.addressOutOfRange, 0x40, some 0x10000⟩) := by decide

/-- The instruction overwrites its own address byte and completes as decoded. -/
theorem test_storemem_into_itself :
    (after ((at_ 0x20 [0x41, 0x21, 0x00]).writeSmall 1 0xEE)).map (fun t => (readBytes t.mem 0x20 3, t.pc)) =
      some ([0x41, 0xEE, 0x00], 0x23) := by decide

theorem test_storememw_odd_address :
    (after ((at_ 0 [0x51, 0x01, 0x01]).writeWide 1 0xABCD)).map (fun t => readBytes t.mem 0x0101 2) =
      some [0xCD, 0xAB] := by decide

/-- Decision D6: neither byte is written. -/
theorem test_storememw_beyond_memory :
    (after (((at_ 0 []).withMem (storeBytes [(0xFFFF, 0x11)] 0 [0x51, 0xFF, 0xFF])).writeWide 1 0xABCD)).map
      (fun t => (t.mem.read 0xFFFF, t.mem.read 0, t.status)) =
      some (0x11, 0x51, .faulted ⟨.addressOutOfRange, 0, some 0x10000⟩) := by decide

theorem test_jmp : outcome (at_ 0x000A [0x6F, 0xCD, 0xAB]) = some (0xABCD, .running) := by decide

theorem test_jmpodd_odd :
    outcome ((at_ 0x100 [0x71, 0x00, 0x00]).writeSmall 1 0xFF) = some (0, .running) := by decide

/-- The test reads the small bank only: W[1] = 1 does not matter. -/
theorem test_jmpodd_even :
    outcome (((at_ 0x100 [0x71, 0x00, 0x00]).writeSmall 1 0xFE).writeWide 1 1) = some (0x103, .running) := by
  decide

theorem test_subm_reads_both_registers :
    (after (((at_ 0 [0x92, 0x12]).writeSmall 1 5).writeSmall 2 100)).map (fun t => (t.small[1], t.small[2], t.pc)) =
      some (161, 100, 2) := by decide

/-- 90_conflicts.md C2: the immediate form computes subm(S[2], 1). -/
theorem test_submI_reads_second_register :
    (after (((at_ 0 [0xD2, 0x12, 0x01]).writeSmall 1 5).writeSmall 2 100)).map
      (fun t => (t.small[1], t.small[2], t.pc)) = some (99, 100, 3) := by decide

theorem test_divW_by_zero :
    (after ((at_ 0 [0xB6, 0x34]).writeWide 3 7)).map (fun t => (t.wide[3], t.pc)) = some (7, 2) := by decide

theorem test_addmWi :
    (after ((at_ 0 [0xF1, 0x25, 0x2C, 0x01]).writeWide 5 1000)).map (fun t => (t.wide[2], t.wide[5], t.pc)) =
      some (1300, 1000, 4) := by decide

theorem test_gtI_leaves_the_wide_bank :
    (after (((at_ 0 [0xDA, 0x12, 0x09]).writeSmall 2 10).writeWide 2 3)).map (fun t => (t.small[1], t.wide[1], t.wide[2])) =
      some (1, 0, 3) := by decide

theorem test_invalid_selector :
    (after ((at_ 0 [0x9E, 0x11]).writeSmall 1 4)).map (fun t => (t.small[1], t.pc, t.status)) =
      some (4, 0, .faulted ⟨.invalidOperation, 0, none⟩) := by decide

/-- Table L2-F: the priority of the faults at the end of memory. -/
theorem test_fault_priority :
    [at_ 0xFFFF [0xFF], at_ 0xFFFF [0xE5], at_ 0xFFFE [0x30], at_ 0xFFFD [0x30, 0xFF, 0xFF], at_ 0x10000 []].map outcome =
    [some (0xFFFF, .faulted ⟨.invalidOperation, 0xFFFF, none⟩),
     some (0xFFFF, .faulted ⟨.truncatedInstruction, 0xFFFF, none⟩),
     some (0xFFFE, .faulted ⟨.truncatedInstruction, 0xFFFE, none⟩),
     some (0xFFFD, .faulted ⟨.addressOutOfRange, 0xFFFD, some 0x10000⟩),
     some (0x10000, .faulted ⟨.addressOutOfRange, 0x10000, some 0x10000⟩)] := by decide

/-- L2-X and L2-B: instructions cut off by the end of memory. -/
theorem test_truncated :
    [at_ 0xFFFF [0x80], at_ 0xFFFD [0xE0, 0x00, 0x00], at_ 0xFFFE [0x60]].map outcome =
    [some (0xFFFF, .faulted ⟨.truncatedInstruction, 0xFFFF, none⟩),
     some (0xFFFD, .faulted ⟨.truncatedInstruction, 0xFFFD, none⟩),
     some (0xFFFE, .faulted ⟨.truncatedInstruction, 0xFFFE, none⟩)] := by decide

/-! ### Witnesses: a state and operands that meet the hypotheses of each statement, clause by clause -/

/-- An instruction of every byte count is well-formed, the reserved rows with their unassigned selectors among them. -/
theorem witness_DecodeInvertsEncode :
    [Instr.outputw 15, .le 15 15, .storemem 15 0xFFFF, .copyWi 15 0 0xFFFF, .invalidSelector 30,
      .invalidSelectorWi 31].all Instr.wellFormed = true := by decide

/-- A window that ends with its instruction, one that goes on after it, and a jump with a nonzero nibble. -/
theorem witness_DecodedWindowBeginsWithTheEncoding :
    decode [0x1F] = .ok (.outputw 15) ∧ decode [0x9D, 0x3C, 0x00, 0x00] = .ok (.le 3 12) ∧
    decode [0x6F, 0xCD, 0xAB] = .ok (.jmp 0xABCD) := by decide

theorem witness_StepRunsTheDecodedInstruction :
    (at_ 0xFFFE [0x91, 0x77]).status = .running ∧
    decode (fetchWindow (at_ 0xFFFE [0x91, 0x77]).mem 0xFFFE) = .ok (.addm 7 7) ∧
    (Instr.addm 7 7).wellFormed = true := by decide

/-- The last place a four-byte instruction fits. -/
theorem witness_StepRunsTheBytesAtPc :
    (at_ 0xFFFC [0xF1, 0x25, 0x2C, 0x01]).status = .running ∧ (Instr.addmWi 2 5 300).wellFormed = true ∧
    bytesAt (at_ 0xFFFC [0xF1, 0x25, 0x2C, 0x01]).mem 0xFFFC (encode (.addmWi 2 5 300)) := by decide

theorem witness_StoredTableWordRunsNext :
    (at_ 0xFFFC []).status = .running ∧ (at_ 0xFFFC []).mem.wf = true ∧ (at_ 0xFFFC []).pc + 4 ≤ 65536 ∧
    decodeTableWord 32 0x012C25F1 = some (.addmWi 2 5 300) := by decide

/-- A core that a fault has stopped. -/
def stopped : State := (at_ 0 [0x9F]).raiseFault .invalidOperation none

/-- A Running core has a step, a Faulted one has none. -/
theorem witness_ExactlyTheRunningCoreHasAStep :
    (∃ t, step (at_ 0 [0x80, 0x00]) = .next t) ∧ stopped.status ≠ .running := by
  exact ⟨⟨_, rfl⟩, by decide⟩

theorem witness_FaultedCoreIsStoppedForGood : stopped.status = .faulted ⟨.invalidOperation, 0, none⟩ := by decide

/-- A selector map other than the reference: `eq` at selector 29, which the reference map gives `le`. -/
def eqMap : Config.SelectorMap where
  ops := referenceOps.take 29 ++ [.eq]
  length_ops := by decide
  nodup_ops := by decide

/-- Each of the four classes under that map, as high in memory as it fits. -/
theorem witness_EverySelectorMapRunsItsOperation :
    eqMap.lookup 29 = some .eq ∧ (at_ 0xFFFE [0x9D, 0x3C]).status = .running ∧
    bytesAt (at_ 0xFFFE [0x9D, 0x3C]).mem 0xFFFE [0x9D, 0x3C] ∧
    bytesAt (at_ 0xFFFE [0xBD, 0x3C]).mem 0xFFFE [0xBD, 0x3C] ∧
    bytesAt (at_ 0xFFFD [0xDD, 0x3C, 0xFF]).mem 0xFFFD [0xDD, 0x3C, 0xFF] ∧
    bytesAt (at_ 0xFFFC [0xFD, 0x3C, 0xFF, 0x80]).mem 0xFFFC [0xFD, 0x3C, 0xFF, 0x80] := by decide

/-- Both directions, at the last byte of memory. -/
theorem witness_InvalidOperationExactlyAtTheEightOpcodes :
    (at_ 0xFFFF [0xFF]).status = .running ∧ (at_ 0xFFFF [0xFF]).pc < 65536 ∧
    (at_ 0xFFFF [0xFF]).mem.read 0xFFFF ∈ illegalBytes ∧
    outcome (at_ 0xFFFF [0xFF]) = some (0xFFFF, .faulted ⟨.invalidOperation, 0xFFFF, none⟩) := by decide

/-- Both directions: a four-byte instruction one byte short. -/
theorem witness_TruncatedInstructionExactlyPastTheEnd :
    (at_ 0xFFFD [0xE0]).status = .running ∧ (at_ 0xFFFD [0xE0]).mem.read 0xFFFD ∉ illegalBytes ∧
    65536 < 0xFFFD + (classify ((at_ 0xFFFD [0xE0]).mem.read 0xFFFD)).length ∧
    outcome (at_ 0xFFFD [0xE0]) = some (0xFFFD, .faulted ⟨.truncatedInstruction, 0xFFFD, none⟩) := by decide

/-- The past-end pc; a word load and a word store whose last byte is the last of memory; and a step that takes it. -/
theorem witness_AddressOutOfRangeExactlyBeyondMemory :
    (at_ 65536 []).status = .running ∧ 65536 ≤ (at_ 65536 []).pc ∧
    bytesAt (at_ 0xFFFD [0x3F, 0xFF, 0xFF]).mem 0xFFFD [0x3F, 0xFF, 0xFF] ∧
    bytesAt (at_ 0xFFFD [0x5F, 0xFF, 0xFF]).mem 0xFFFD [0x5F, 0xFF, 0xFF] ∧
    outcome (at_ 0xFFFD [0x5F, 0xFF, 0xFF]) =
      some (0xFFFD, .faulted ⟨.addressOutOfRange, 0xFFFD, some 65536⟩) := by decide

theorem witness_FaultsArePreciseAndEffectFree :
    ∃ t, (at_ 0x40 [0x5F, 0xFF, 0xFF]).status = .running ∧ step (at_ 0x40 [0x5F, 0xFF, 0xFF]) = .next t ∧
      t.status = .faulted ⟨.addressOutOfRange, 0x40, some 65536⟩ :=
  ⟨_, rfl, rfl, rfl⟩

/-- An illegal byte of each class, at the last byte of memory. -/
theorem witness_InvalidSelectorTakesInvalidOperation :
    30 ≤ (30 : Selector).toNat ∧ bytesAt (at_ 0xFFFF [0x9E]).mem 0xFFFF [0x9E] ∧
    bytesAt (at_ 0xFFFF [0xBF]).mem 0xFFFF [0xBF] ∧ bytesAt (at_ 0xFFFF [0xDE]).mem 0xFFFF [0xDE] ∧
    bytesAt (at_ 0xFFFF [0xFF]).mem 0xFFFF [0xFF] := by decide

/-- A core at the last byte of memory has the invariant, and its step leaves the past-end pc. -/
theorem witness_EveryStepKeepsTheInvariant :
    (at_ 0xFFFF [0x00]).inv = true ∧ outcome (at_ 0xFFFF [0x00]) = some (65536, .running) := by decide

/-- The longest image that fits, one byte more, and a memory with a byte outside the image. -/
theorem witness_CreateLoadsTheImageAtZero :
    Memory.wf [(0xFFFF, 0x5A)] = true ∧
    (List.replicate 65536 (1 : Byte)).length ≤ 65536 ∧ 65536 < (List.replicate 65537 (1 : Byte)).length := by
  simp only [List.length_replicate]; decide

/-- The deepest bit at each width. -/
theorem witness_ReverseMirrorsEveryBit : 7 < Width.small.bits ∧ 15 < Width.wide.bits := by decide

theorem witness_OutputIsOnlyAppendedToAndNeverRead :
    (∃ t, exec (.outputw 15) (at_ 0 [0x1F]) = .next t) ∧ ∃ t, step (at_ 0 [0x1F]) = .next t :=
  ⟨⟨_, rfl⟩, ⟨_, rfl⟩⟩

/-- One instruction that writes each bank. -/
theorem witness_BanksAreDisjointAndExchangeNothing :
    (∃ t, exec (.not 1 2) State.reset = .next t) ∧ ∃ t, exec (.notW 1 2) State.reset = .next t :=
  ⟨⟨_, rfl⟩, ⟨_, rfl⟩⟩

/-- A store of two bytes at the top of memory, a load, and an instruction that takes a fault. -/
theorem witness_EveryInstructionChangesOnlyItsDestinations :
    State.reset.mem.wf = true ∧ (∃ t, exec (.storememw 1 0xFFFE) State.reset = .next t) ∧
    (∃ t, exec (.loadmem 1 0xFFFF) State.reset = .next t) ∧
    ∃ t, exec (.storememw 1 0xFFFF) State.reset = .next t :=
  ⟨by decide, ⟨_, rfl⟩, ⟨_, rfl⟩, ⟨_, rfl⟩⟩

theorem witness_OutputEmitsTheSmallRegister :
    (at_ 0xFFFF [0x0F]).status = .running ∧
    bytesAt (at_ 0xFFFF [0x0F]).mem 0xFFFF [BitVec.ofNat 8 (0x00 + (15 : RegIdx).val)] := by decide

theorem witness_OutputwEmitsTheWideRegister :
    (at_ 0xFFFF [0x1F]).status = .running ∧
    bytesAt (at_ 0xFFFF [0x1F]).mem 0xFFFF [BitVec.ofNat 8 (0x10 + (15 : RegIdx).val)] := by decide

theorem witness_LoadmemReadsOneByte :
    (at_ 0xFFFD [0x2F, 0xFF, 0xFF]).status = .running ∧
    bytesAt (at_ 0xFFFD [0x2F, 0xFF, 0xFF]).mem 0xFFFD [BitVec.ofNat 8 (0x20 + (15 : RegIdx).val), 0xFF, 0xFF] := by
  decide

/-- The bytes as high as they fit, with the last legal address and the first that faults; then cut off. -/
theorem witness_LoadmemwReadsTwoBytesLowFirst :
    (0xFFFE : Addr).toNat ≠ 0xFFFF ∧ (0xFFFF : Addr).toNat = 0xFFFF ∧
    bytesAt (at_ 0xFFFD [0x3F, 0xFE, 0xFF]).mem 0xFFFD [BitVec.ofNat 8 (0x30 + (15 : RegIdx).val), 0xFE, 0xFF] ∧
    bytesAt (at_ 0xFFFD [0x3F, 0xFF, 0xFF]).mem 0xFFFD [BitVec.ofNat 8 (0x30 + (15 : RegIdx).val), 0xFF, 0xFF] ∧
    65533 < (at_ 0xFFFE [0x3F]).pc ∧ (at_ 0xFFFF [0x3F]).pc < 65536 ∧
    (at_ 0xFFFF [0x3F]).mem.read 0xFFFF = BitVec.ofNat 8 (0x30 + (15 : RegIdx).val) := by decide

theorem witness_StorememWritesOneByte : State.reset.mem.wf = true ∧ (at_ 0 [0x44, 0xFF, 0xFF]).mem.wf = true := by
  decide

/-- Each clause at the address where they meet. -/
theorem witness_StorememwWritesTwoBytesLowFirst :
    (at_ 0 [0x51]).mem.wf = true ∧ effectiveAddress 0xFFFE < 0xFFFF ∧ effectiveAddress 0xFFFF = 0xFFFF := by
  decide

theorem witness_JmpGoesToItsAddress :
    bytesAt (at_ 0xFFFD [0x6F, 0xCD, 0xAB]).mem 0xFFFD [BitVec.ofNat 8 (0x60 + (15 : RegIdx).val), 0xCD, 0xAB] ∧
    65533 < (at_ 0xFFFE [0x60]).pc ∧ (at_ 0xFFFF [0x6F]).pc < 65536 ∧
    (at_ 0xFFFF [0x6F]).mem.read 0xFFFF = BitVec.ofNat 8 (0x60 + (15 : RegIdx).val) := by decide

/-- Both an odd and an even register, and the instruction cut off. -/
theorem witness_JmpoddGoesWhenOdd :
    bytesAt (at_ 0xFFFD [0x7F, 0xCD, 0xAB]).mem 0xFFFD [BitVec.ofNat 8 (0x70 + (15 : RegIdx).val), 0xCD, 0xAB] ∧
    ((at_ 0 []).writeSmall 15 1).small[15].toNat % 2 = 1 ∧ (at_ 0 []).small[15].toNat % 2 ≠ 1 ∧
    65533 < (at_ 0xFFFE [0x7F]).pc ∧
    (at_ 0xFFFE [0x7F]).mem.read 0xFFFE = BitVec.ofNat 8 (0x70 + (15 : RegIdx).val) := by decide

/-- In sequence, by a jump, and by a conditional jump whose register is odd. -/
theorem witness_OnlyJumpsLeaveTheSequence :
    [exec (.copy 0 0) State.reset, exec (.jmp 0xFFFF) State.reset,
      exec (.jmpodd 1 0xABCD) (State.reset.writeSmall 1 1)].map (fun r => (nextState r).map fun t => (t.pc, t.status)) =
    [some (2, .running), some (0xFFFF, .running), some (0xABCD, .running)] := by decide

theorem witness_PastEndOnlyBySequentialAdvance :
    (at_ 0xFFFD [0x71, 0x00, 0x00]).pc < 65536 ∧
    outcome (at_ 0xFFFD [0x71, 0x00, 0x00]) = some (65536, .running) := by decide

/-- The first and the last form of each list. -/
theorem witness_EveryBinOpSmallComputesItsFormula :
    (AluOp.copy, Instr.copy) ∈ binOpSmallForms ∧ (AluOp.le, Instr.le) ∈ binOpSmallForms := by
  simp [binOpSmallForms]

theorem witness_EveryBinOpWideComputesItsFormula :
    (AluOp.copy, Instr.copyW) ∈ binOpWideForms ∧ (AluOp.le, Instr.leW) ∈ binOpWideForms := by
  simp [binOpWideForms]

theorem witness_EveryBinOpImmSmallComputesItsFormula :
    (AluOp.copy, Instr.copyI) ∈ binOpImmSmallForms ∧ (AluOp.le, Instr.leI) ∈ binOpImmSmallForms := by
  simp [binOpImmSmallForms]

theorem witness_EveryBinOpImmWideComputesItsFormula :
    (AluOp.copy, Instr.copyWi) ∈ binOpImmWideForms ∧ (AluOp.le, Instr.leWi) ∈ binOpImmWideForms := by
  simp [binOpImmWideForms]

/-- The smallest a and b of each clause, at both widths. -/
theorem witness_PowerCornerCases :
    (0 : BitVec Width.small.bits).toNat % 2 = 0 ∧ 2 ≤ (2 : BitVec Width.small.bits).toNat ∧
    Width.small.bits ≤ (8 : BitVec Width.small.bits).toNat ∧ Width.wide.bits ≤ (16 : BitVec Width.wide.bits).toNat := by
  decide

theorem witness_ReadAfterWrite : (storeBytes [] 0xFFFE [0x34, 0x12] : Memory).wf = true := by decide

/-- One memory written in two orders. -/
theorem witness_MemoryIsDeterminedByItsBytes :
    ((Memory.write [] 7 1).write 3 2).wf = true ∧ ((Memory.write [] 3 2).write 7 1).wf = true ∧
    ∀ a, ((Memory.write [] 7 1).write 3 2).read a = ((Memory.write [] 3 2).write 7 1).read a := by
  refine ⟨by decide, by decide, fun a => ?_⟩
  rw [show (Memory.write [] 7 1).write 3 2 = (Memory.write [] 3 2).write 7 1 from by decide]

/-- The last address of each clause. -/
theorem witness_WordReadIsCheckedAndLittleEndian :
    65536 ≤ 65536 ∧ (65535 < 65536 ∧ 65536 ≤ 65535 + 1) ∧ 65534 + 1 < 65536 := by decide

theorem witness_WordIsItsTwoBytes : (storeBytes [] 0xFFFE [0x34, 0x12] : Memory).wf = true ∧ 0xFFFE + 1 < 65536 := by
  decide

/-- The first and last pc of the first clause, and those next to them in the second. -/
theorem witness_StoredByteIsFetched :
    (at_ 0 []).mem.wf = true ∧ (∃ t, exec (.storemem 1 0x0100) (at_ 0 []) = .next t) ∧
    (0x0100 ≤ (0x0100 : Addr).toNat ∧ (0x0100 : Addr).toNat < 0x00FD + 4) ∧
    ((0x0100 : Addr).toNat < 0x0101 ∧ 0x00FC + 4 ≤ (0x0100 : Addr).toNat) :=
  ⟨by decide, ⟨_, rfl⟩, by decide, by decide⟩

theorem witness_StepBudgetRunsThatManySteps :
    2 ≤ [false, false].length ∧ ∃ t, Sys2Proof.core.run 2 (at_ 0 [0x80, 0x00, 0x91, 0x77]) = .next t :=
  ⟨by decide, ⟨_, rfl⟩⟩

theorem witness_PcLeavesMemoryIsNormalTermination :
    (at_ 65536 []).status = .running ∧ (at_ 65536 []).pc = 65536 := by decide

theorem witness_PseudoInstructionsDoWhatTheySay : (at_ 0xFFFD []).pc = (0xFFFD : Addr).toNat := by decide

end Sys2Proof.Tests
end

section
/-! Every instruction is its decoded shape run under the reference selector map (R92), so a fact about what instructions
do needs thirteen cases and not one for each of the 132 rows. -/

namespace Sys2Proof.Proofs

open Sys2Proof.Machine

theorem exec_eq_execShape (i : Instr) (s : State) : exec i s = execShape referenceMap i.toShape s := by
  cases i <;> rfl

end Sys2Proof.Proofs
end

section
/-! The output stream (R30): what a shape emits, and that running it with another stream appends the same to that one and
does the same to all else. -/

namespace Sys2Proof.Proofs

open Sys2Proof.Machine Sys2Proof.Certificates

/-- What a decoded shape emits (R110, R111). -/
def shapeEmitted (sh : Shape) (s : State) : List Emission :=
  match sh with
  | .output r => [.byte (s.readSmall r)]
  | .outputWide r => [.word (s.readWide r)]
  | _ => []

theorem emitted_eq_shapeEmitted (i : Instr) (s : State) : emitted i s = shapeEmitted i.toShape s := by
  cases i <;> rfl

theorem emission_width_and_value (e : Emission) :
    (e.width = 8 ∨ e.width = 16) ∧ e.value < 2 ^ e.width := by
  cases e with
  | byte v => exact ⟨.inl rfl, v.isLt⟩
  | word v => exact ⟨.inr rfl, v.isLt⟩

/-- A shape appends what it emits, and never reads the stream: run with another one, it appends the same to that and
does the same to all else. -/
theorem execShape_appends_to_any_stream (m : Config.SelectorMap) (sh : Shape) (s : State) (stream : List Emission) :
    ∃ t, execShape m sh s = .next t ∧ t.out = s.out ++ shapeEmitted sh s ∧
      execShape m sh { s with out := stream } = .next { t with out := stream ++ shapeEmitted sh s } := by
  cases sh with
  | output | outputWide => exact ⟨_, rfl, rfl, rfl⟩
  | jump | invalidSelector =>
    simp only [shapeEmitted, List.append_nil]
    exact ⟨_, rfl, rfl, rfl⟩
  | loadMem r addr =>
    simp only [shapeEmitted, List.append_nil, execShape, execLoadmem]
    cases readByte s.mem (effectiveAddress addr) <;> exact ⟨_, rfl, rfl, rfl⟩
  | loadMemWide r addr =>
    simp only [shapeEmitted, List.append_nil, execShape, execLoadmemw]
    cases readWord s.mem (effectiveAddress addr) <;> exact ⟨_, rfl, rfl, rfl⟩
  | storeMem r addr =>
    simp only [shapeEmitted, List.append_nil, execShape, execStoremem, State.readSmall]
    cases writeByte s.mem (effectiveAddress addr) s.small[r] <;> exact ⟨_, rfl, rfl, rfl⟩
  | storeMemWide r addr =>
    simp only [shapeEmitted, List.append_nil, execShape, execStorememw, State.readWide]
    cases writeWord s.mem (effectiveAddress addr) s.wide[r] <;> exact ⟨_, rfl, rfl, rfl⟩
  | jumpIfOdd r addr =>
    simp only [shapeEmitted, List.append_nil, execShape, execJmpodd]
    by_cases hodd : (s.readSmall r).getLsbD 0
    · exact ⟨_, if_pos hodd, rfl, if_pos hodd⟩
    · exact ⟨_, if_neg hodd, rfl, if_neg hodd⟩
  | binOpSmall sel | binOpWide sel | binOpImmSmall sel | binOpImmWide sel =>
    simp only [shapeEmitted, List.append_nil, execShape, withOperation]
    cases m.lookup sel <;> exact ⟨_, rfl, rfl, rfl⟩

/-- The same of an instruction and the state it answers. -/
theorem exec_appends_to_any_stream {i : Instr} {s t : State} (stream : List Emission) (h : exec i s = .next t) :
    t.out = s.out ++ emitted i s ∧
      exec i { s with out := stream } = .next { t with out := stream ++ emitted i s } := by
  rw [exec_eq_execShape] at h ⊢
  rw [emitted_eq_shapeEmitted]
  obtain ⟨t', hnext, hout, hany⟩ := execShape_appends_to_any_stream referenceMap i.toShape s stream
  cases hnext.symm.trans h
  exact ⟨hout, hany⟩

theorem raiseDecodeError_out (s : State) (e : DecodeError) : (s.raiseDecodeError e).out = s.out := by
  cases e <;> rfl

theorem raiseDecodeError_with_out (s : State) (e : DecodeError) (stream : List Emission) :
    State.raiseDecodeError { s with out := stream } e = { s.raiseDecodeError e with out := stream } := by
  cases e <;> rfl

/-- The step fetches and decodes the same whatever the stream, so it appends to any stream what it appends to its own. -/
theorem step_appends_to_any_stream {s t : State} (stream : List Emission) (h : step s = .next t) :
    ∃ added, t.out = s.out ++ added ∧
      step { s with out := stream } = .next { t with out := stream ++ added } := by
  obtain ⟨hrun, ⟨i, hdec, hexec⟩ | ⟨e, hdec, rfl⟩⟩ := step_next_cases h
  · obtain ⟨hout, hany⟩ := exec_appends_to_any_stream stream hexec
    exact ⟨emitted i s, hout, (step_decoded (s := { s with out := stream }) hrun hdec).trans hany⟩
  · refine ⟨[], by simp [raiseDecodeError_out], ?_⟩
    rw [step_decodeError (s := { s with out := stream }) hrun hdec, raiseDecodeError_with_out, List.append_nil]

/-- Settles O21, by the case split over decoded shapes in `execShape_appends_to_any_stream`. -/
theorem outputIsOnlyAppendedToAndNeverRead : Obligations.OutputIsOnlyAppendedToAndNeverRead :=
  ⟨emission_width_and_value, rfl, fun _ s _ h => (exec_appends_to_any_stream s.out h).1,
    fun _ _ stream h => step_appends_to_any_stream stream h⟩

end Sys2Proof.Proofs
end

section
/-! The register banks (R23): each bank after a shape is a function of that bank and memory, so the other bank cannot
reach it. -/

namespace Sys2Proof.Proofs

open Sys2Proof.Machine

/-- The write a shape makes to the small bank, computed from that bank and memory alone (R120, R200, R202). -/
def smallWrite (m : Config.SelectorMap) (sh : Shape) (small : Vector Byte 16) (mem : Memory) : Option (RegIdx × Byte) :=
  match sh with
  | .loadMem r addr => (readByte mem (effectiveAddress addr)).toOption.map (r, ·)
  | .binOpSmall sel a b => (m.lookup sel).map fun op => (a, alu op .small small[a] small[b])
  | .binOpImmSmall sel a b v => (m.lookup sel).map fun op => (a, alu op .small small[b] v)
  | _ => none

/-- The write a shape makes to the wide bank, computed from that bank and memory alone (R121, R201, R203). -/
def wideWrite (m : Config.SelectorMap) (sh : Shape) (wide : Vector Word 16) (mem : Memory) : Option (RegIdx × Word) :=
  match sh with
  | .loadMemWide r addr => (readWord mem (effectiveAddress addr)).toOption.map (r, ·)
  | .binOpWide sel a b => (m.lookup sel).map fun op => (a, alu op .wide wide[a] wide[b])
  | .binOpImmWide sel a b v => (m.lookup sel).map fun op => (a, alu op .wide wide[b] v)
  | _ => none

/-- A bank after a write, if there is one. -/
def bankAfter {α : Type} (bank : Vector α 16) : Option (RegIdx × α) → Vector α 16
  | some (r, v) => bank.set r v
  | none => bank

/-- Every shape answers a next state, whose banks are those that `smallWrite` and `wideWrite` give. -/
theorem execShape_banks (m : Config.SelectorMap) (sh : Shape) (s : State) :
    ∃ t, execShape m sh s = .next t ∧ t.small = bankAfter s.small (smallWrite m sh s.small s.mem) ∧
      t.wide = bankAfter s.wide (wideWrite m sh s.wide s.mem) := by
  cases sh with
  | output | outputWide | jump | invalidSelector => exact ⟨_, rfl, rfl, rfl⟩
  | loadMem r addr =>
    simp only [execShape, execLoadmem, smallWrite]
    cases readByte s.mem (effectiveAddress addr) <;> exact ⟨_, rfl, rfl, rfl⟩
  | loadMemWide r addr =>
    simp only [execShape, execLoadmemw, wideWrite]
    cases readWord s.mem (effectiveAddress addr) <;> exact ⟨_, rfl, rfl, rfl⟩
  | storeMem r addr =>
    simp only [execShape, execStoremem]
    cases writeByte s.mem (effectiveAddress addr) (s.readSmall r) <;> exact ⟨_, rfl, rfl, rfl⟩
  | storeMemWide r addr =>
    simp only [execShape, execStorememw]
    cases writeWord s.mem (effectiveAddress addr) (s.readWide r) <;> exact ⟨_, rfl, rfl, rfl⟩
  | jumpIfOdd r addr =>
    simp only [execShape, execJmpodd]
    split <;> exact ⟨_, rfl, rfl, rfl⟩
  | binOpSmall sel | binOpWide sel | binOpImmSmall sel | binOpImmWide sel =>
    simp only [execShape, withOperation, smallWrite, wideWrite]
    cases m.lookup sel <;> exact ⟨_, rfl, rfl, rfl⟩

/-- No shape writes to both banks. -/
theorem smallWrite_or_wideWrite_none (m : Config.SelectorMap) (sh : Shape) (small : Vector Byte 16)
    (wide : Vector Word 16) (mem : Memory) : smallWrite m sh small mem = none ∨ wideWrite m sh wide mem = none := by
  cases sh with
  | loadMemWide | binOpWide | binOpImmWide => exact .inl rfl
  | _ => exact .inr rfl

theorem exec_banks (i : Instr) (s : State) :
    ∃ t, exec i s = .next t ∧ t.small = bankAfter s.small (smallWrite referenceMap i.toShape s.small s.mem) ∧
      t.wide = bankAfter s.wide (wideWrite referenceMap i.toShape s.wide s.mem) := by
  rw [exec_eq_execShape]
  exact execShape_banks referenceMap i.toShape s

theorem exec_banks_of_next {i : Instr} {s t : State} (h : exec i s = .next t) :
    t.small = bankAfter s.small (smallWrite referenceMap i.toShape s.small s.mem) ∧
      t.wide = bankAfter s.wide (wideWrite referenceMap i.toShape s.wide s.mem) := by
  obtain ⟨t', hnext, hbanks⟩ := exec_banks i s
  cases hnext.symm.trans h
  exact hbanks

theorem exec_keeps_a_bank {i : Instr} {s t : State} (h : exec i s = .next t) : t.small = s.small ∨ t.wide = s.wide := by
  obtain ⟨hsmall, hwide⟩ := exec_banks_of_next h
  rcases smallWrite_or_wideWrite_none referenceMap i.toShape s.small s.wide s.mem with hnone | hnone
  · exact .inl (by rw [hsmall, hnone, bankAfter])
  · exact .inr (by rw [hwide, hnone, bankAfter])

theorem exec_small_of_any_wide {i : Instr} {s t : State} (bank : Vector Word 16) (h : exec i s = .next t) :
    ∃ t', exec i { s with wide := bank } = .next t' ∧ t'.small = t.small := by
  obtain ⟨t', hnext, hsmall, -⟩ := exec_banks i { s with wide := bank }
  exact ⟨t', hnext, hsmall.trans (exec_banks_of_next h).1.symm⟩

theorem exec_wide_of_any_small {i : Instr} {s t : State} (bank : Vector Byte 16) (h : exec i s = .next t) :
    ∃ t', exec i { s with small := bank } = .next t' ∧ t'.wide = t.wide := by
  obtain ⟨t', hnext, -, hwide⟩ := exec_banks i { s with small := bank }
  exact ⟨t', hnext, hwide.trans (exec_banks_of_next h).2.symm⟩

/-- Settles O22: the banks after an instruction are those of `execShape_banks`, each computed without the other. -/
theorem banksAreDisjointAndExchangeNothing : Obligations.BanksAreDisjointAndExchangeNothing :=
  ⟨fun _ _ _ _ => rfl, fun _ _ _ _ => rfl, fun _ _ _ h => exec_keeps_a_bank h,
    fun _ _ _ bank h => exec_small_of_any_wide bank h, fun _ _ _ bank h => exec_wide_of_any_small bank h⟩

end Sys2Proof.Proofs
end

section
/-! Word reads (R45): the branches of `readWord_cases` as one equation for each range of the address. -/

namespace Sys2Proof.Proofs

open Sys2Proof.Machine

theorem readWord_of_first_outside (m : Memory) {a : Nat} (h : Config.memSize ≤ a) : readWord m a = .error a := by
  rcases readWord_cases m a with ⟨hin, -⟩ | ⟨hin, -, -⟩ | ⟨-, heq⟩
  · omega
  · omega
  · exact heq

theorem readWord_of_second_outside (m : Memory) {a : Nat} (hfirst : a < Config.memSize)
    (hsecond : Config.memSize ≤ a + 1) : readWord m a = .error (a + 1) := by
  rcases readWord_cases m a with ⟨hin, -⟩ | ⟨-, -, heq⟩ | ⟨hout, -⟩
  · omega
  · exact heq
  · omega

theorem readWord_of_inside (m : Memory) {a : Nat} (h : a + 1 < Config.memSize) :
    readWord m a = .ok (joinBytes (m.read a) (m.read (a + 1))) := by
  rcases readWord_cases m a with ⟨-, heq⟩ | ⟨-, hout, -⟩ | ⟨hout, -⟩
  · exact heq
  · omega
  · omega

/-- Settles O49: one equation of `readWord` for each range of the address; the value is that of `joinBytes_toNat`. -/
theorem wordReadIsCheckedAndLittleEndian : Obligations.WordReadIsCheckedAndLittleEndian :=
  fun m a => ⟨readWord_of_first_outside m, readWord_of_second_outside m,
    fun h => ⟨_, readWord_of_inside m h, joinBytes_toNat (m.read a) (m.read (a + 1))⟩⟩

end Sys2Proof.Proofs
end

section
/-! The opcode byte's classes (R70): the range of each class, and that the four top bits, which `classify` looks at, say
which range the byte lies in. -/

namespace Sys2Proof.Proofs

open Sys2Proof.Machine

/-- The opcode bytes R70 gives a class. -/
def opcodeRange : OpClass → Set Nat
  | .output => Set.Icc 0x00 0x0F
  | .outputWide => Set.Icc 0x10 0x1F
  | .loadMem => Set.Icc 0x20 0x2F
  | .loadMemWide => Set.Icc 0x30 0x3F
  | .storeMem => Set.Icc 0x40 0x4F
  | .storeMemWide => Set.Icc 0x50 0x5F
  | .jump => Set.Icc 0x60 0x6F
  | .jumpIfOdd => Set.Icc 0x70 0x7F
  | .arith .binOpSmall => Set.Icc 0x80 0x9F
  | .arith .binOpWide => Set.Icc 0xA0 0xBF
  | .arith .binOpImmSmall => Set.Icc 0xC0 0xDF
  | .arith .binOpImmWide => Set.Icc 0xE0 0xFF

/-- The value of bits 7 to 4 of a byte, at their places. -/
def topBitsValue (op : Byte) : Nat :=
  128 * (op.getLsbD 7).toNat + 64 * (op.getLsbD 6).toNat + 32 * (op.getLsbD 5).toNat + 16 * (op.getLsbD 4).toNat

theorem toNat_mem_Icc_topBitsValue (op : Byte) : op.toNat ∈ Set.Icc (topBitsValue op) (topBitsValue op + 15) := by
  have hlt := op.isLt
  simp only [topBitsValue, BitVec.getLsbD, Nat.toNat_testBit, Set.mem_Icc]
  omega

theorem mem_opcodeRange_classify (op : Byte) : op.toNat ∈ opcodeRange (classify op) := by
  have hvalue := toNat_mem_Icc_topBitsValue op
  have hbit4 := Bool.toNat_le (op.getLsbD 4)
  unfold classify
  split <;>
    simp only [topBitsValue, opcodeRange, Set.mem_Icc, Bool.toNat_true, Bool.toNat_false, *] at hvalue ⊢ <;> omega

/-- No opcode byte lies in the ranges of two classes. -/
theorem eq_of_mem_opcodeRange {c d : OpClass} {n : Nat} (hc : n ∈ opcodeRange c) (hd : n ∈ opcodeRange d) : c = d := by
  rcases c with _ | _ | _ | _ | _ | _ | _ | _ | (_ | _ | _ | _) <;>
    rcases d with _ | _ | _ | _ | _ | _ | _ | _ | (_ | _ | _ | _) <;>
    simp only [opcodeRange, Set.mem_Icc, reduceCtorEq, OpClass.arith.injEq] at hc hd ⊢ <;> omega

theorem classify_eq_iff (op : Byte) (c : OpClass) : classify op = c ↔ op.toNat ∈ opcodeRange c := by
  constructor
  · rintro rfl
    exact mem_opcodeRange_classify op
  · exact eq_of_mem_opcodeRange (mem_opcodeRange_classify op)

/-- Settles O4: `classify_eq_iff` at each class; the lower bound of the first and the upper bound of the last range
hold of every byte. -/
theorem opcodeRangesOfTheTwelveShapes : Obligations.OpcodeRangesOfTheTwelveShapes := fun op =>
  ⟨(classify_eq_iff op .output).trans (and_iff_right (Nat.zero_le _)),
    classify_eq_iff op .outputWide, classify_eq_iff op .loadMem, classify_eq_iff op .loadMemWide,
    classify_eq_iff op .storeMem, classify_eq_iff op .storeMemWide, classify_eq_iff op .jump,
    classify_eq_iff op .jumpIfOdd, classify_eq_iff op (.arith .binOpSmall), classify_eq_iff op (.arith .binOpWide),
    classify_eq_iff op (.arith .binOpImmSmall),
    (classify_eq_iff op (.arith .binOpImmWide)).trans (and_iff_left (Nat.le_of_lt_succ op.isLt))⟩

end Sys2Proof.Proofs
end

section
/-! The step over bytes that lie at pc (R73, R91): the window begins with them, so what they decode to is what runs. -/

namespace Sys2Proof.Proofs

open Sys2Proof.Machine Sys2Proof.Certificates

theorem bytesAt_cons_iff (m : Memory) (a : Nat) (b : Byte) (bs : List Byte) :
    bytesAt m a (b :: bs) ↔ a < Config.memSize ∧ m.read a = b ∧ bytesAt m (a + 1) bs := by
  have hsize : Config.memSize = 65536 := rfl
  simp only [bytesAt, List.length_cons]
  constructor
  · rintro ⟨hfit, hread⟩
    refine ⟨by omega, hread 0 (by omega), by omega, fun k hk => ?_⟩
    have hnext := hread (k + 1) (by omega)
    rwa [← Nat.add_assoc, Nat.add_right_comm] at hnext
  · rintro ⟨-, rfl, hfit, hread⟩
    refine ⟨by omega, fun k hk => ?_⟩
    cases k with
    | zero => rfl
    | succ k =>
      rw [← Nat.add_assoc, Nat.add_right_comm]
      exact hread k (by omega)

/-- Bytes that lie in memory are the first ones read from there. -/
theorem readBytes_of_bytesAt {m : Memory} {a n : Nat} {bs : List Byte} (hbytes : bytesAt m a bs)
    (hlen : bs.length ≤ n) : ∃ rest, readBytes m a n = bs ++ rest := by
  induction bs generalizing a n with
  | nil => exact ⟨_, rfl⟩
  | cons b bs ih =>
    obtain ⟨hin, hread, htail⟩ := (bytesAt_cons_iff m a b bs).mp hbytes
    cases n with
    | zero => cases hlen
    | succ n =>
      obtain ⟨rest, hrest⟩ := ih htail (Nat.le_of_succ_le_succ hlen)
      exact ⟨rest, by rw [readBytes, if_pos ((inMemory_iff a).mpr hin), hread, hrest, List.cons_append]⟩

/-- The step over bytes at pc that decode to an instruction, whatever follows them, runs that instruction. -/
theorem step_of_bytesAt {s : State} {bs : List Byte} {i : Instr} (hrun : s.status = .running)
    (hbytes : bytesAt s.mem s.pc bs) (hlen : bs.length ≤ maxInstrLength)
    (hdec : ∀ rest, decode (bs ++ rest) = .ok i) : step s = exec i s := by
  obtain ⟨rest, hwindow⟩ := readBytes_of_bytesAt hbytes hlen
  exact step_decoded hrun (by rw [fetchWindow, hwindow, hdec])

end Sys2Proof.Proofs
end

section
/-! The output instructions (R110, R111): their opcode bytes and the whole next state. -/

namespace Sys2Proof.Proofs

open Sys2Proof.Machine

/-- The opcode byte of a simple class as a number: the class in bits 7:4, the register in bits 3:0 (R64). -/
theorem simpleOpcode_eq_ofNat (cls : BitVec 4) (r : RegIdx) :
    simpleOpcode cls r = BitVec.ofNat 8 (16 * cls.toNat + r.val) := by
  revert cls r; decide

/-- A legal opcode byte with its operand bytes present decodes to its fields (R73). -/
theorem decodeShape_of_legal {op : Byte} {rest : List Byte} (hlegal : illegalOpcode op = none)
    (hlength : (classify op).length ≤ rest.length + 1) :
    decodeShape (op :: rest) =
      .ok (assemble (classify op) op (rest.getD 0 0) (rest.getD 1 0) (rest.getD 2 0)) := by
  simp only [decodeShape, hlegal, if_neg (Nat.not_lt.mpr hlength)]

theorem decode_outputw (r : RegIdx) (rest : List Byte) :
    decode (simpleOpcode 0b0001 r :: rest) = .ok (.outputw r) := by
  obtain ⟨hreg, -, hclass, -⟩ := simpleOpcode_fields r
  have hlegal : illegalOpcode (simpleOpcode 0b0001 r) = none := by rw [illegalOpcode, hclass]
  have hlength : (classify (simpleOpcode 0b0001 r)).length ≤ rest.length + 1 := by
    rw [hclass]
    exact Nat.le_add_left 1 _
  refine (decode_ok_iff _ _).mpr ⟨.outputWide r, ?_, rfl⟩
  rw [decodeShape_of_legal hlegal hlength, hclass, assemble, hreg]

theorem exec_outputw (r : RegIdx) (s : State) :
    exec (.outputw r) s = .next { s with out := s.out ++ [.word s.wide[r]], pc := s.pc + 1 } := rfl

/-- Settles O25: the one byte at pc is outputw's opcode byte, so the step over it is `exec_outputw`. -/
theorem outputwEmitsTheWideRegister : Obligations.OutputwEmitsTheWideRegister := by
  refine fun r s => ⟨exec_outputw r s, fun hrun hbytes => ?_⟩
  rw [show BitVec.ofNat 8 (0x10 + r.val) = simpleOpcode 0b0001 r from (simpleOpcode_eq_ofNat 0b0001 r).symm] at hbytes
  exact (step_of_bytesAt hrun hbytes (Nat.le_add_left 1 3) (decode_outputw r)).trans (exec_outputw r s)

end Sys2Proof.Proofs
end

section
/-! The step over an opcode byte whose operand bytes run past the end of memory (R223): the window stops where memory
does, so it is too short for the opcode's class. -/

namespace Sys2Proof.Proofs

open Sys2Proof.Machine Sys2Proof.Certificates

theorem readBytes_length_le (m : Memory) (a n : Nat) : (readBytes m a n).length ≤ Config.memSize - a := by
  induction n generalizing a with
  | zero => exact Nat.zero_le _
  | succ n ih =>
    rw [readBytes]
    split
    · next hin =>
      have htail := ih (a + 1)
      have hlt := (inMemory_iff a).mp hin
      rw [List.length_cons]
      omega
    · exact Nat.zero_le _

theorem fetchWindow_of_inside (m : Memory) {pc : Nat} (h : pc < Config.memSize) :
    fetchWindow m pc = m.read pc :: readBytes m (pc + 1) 3 :=
  if_pos ((inMemory_iff pc).mpr h)

/-- A legal opcode byte with operand bytes missing does not decode (R73). -/
theorem decodeShape_of_short {op : Byte} {rest : List Byte} (hlegal : illegalOpcode op = none)
    (hshort : rest.length + 1 < (classify op).length) : decodeShape (op :: rest) = .error .truncated := by
  simp only [decodeShape, hlegal, if_pos hshort]

theorem step_of_bytes_past_end {s : State} (hrun : s.status = .running) (hpc : s.pc < Config.memSize)
    (hlegal : illegalOpcode (s.mem.read s.pc) = none)
    (hpast : Config.memSize < s.pc + (classify (s.mem.read s.pc)).length) :
    step s = .next (faultedWith s .truncatedInstruction none) := by
  have hfetched := readBytes_length_le s.mem (s.pc + 1) 3
  have hdec : decode (fetchWindow s.mem s.pc) = .error .truncated := by
    rw [decode_error_iff, fetchWindow_of_inside s.mem hpc]
    exact decodeShape_of_short hlegal (by omega)
  exact step_decodeError hrun hdec

end Sys2Proof.Proofs
end

section
/-! The wide load (R121): its three bytes, the word it reads on each side of 0xFFFF, and its bytes cut off by the end of
memory. -/

namespace Sys2Proof.Proofs

open Sys2Proof.Machine Sys2Proof.Certificates

theorem lowByte_eq_ofNat (w : Word) : lowByte w = BitVec.ofNat 8 w.toNat :=
  BitVec.eq_of_toNat_eq (by rw [lowByte_toNat, BitVec.toNat_ofNat])

theorem highByte_eq_ofNat (w : Word) : highByte w = BitVec.ofNat 8 (w.toNat / 256) := by
  have hlt := w.isLt
  refine BitVec.eq_of_toNat_eq ?_
  rw [highByte_toNat, BitVec.toNat_ofNat]
  omega

theorem joinBytes_eq_ofNat (lo hi : Byte) : joinBytes lo hi = BitVec.ofNat 16 (lo.toNat + 256 * hi.toNat) := by
  rw [← joinBytes_toNat, BitVec.ofNat_toNat, BitVec.setWidth_eq]

theorem classify_loadmemw (r : RegIdx) : classify (simpleOpcode 0b0011 r) = .loadMemWide := by
  obtain ⟨-, -, -, -, hclass, -⟩ := simpleOpcode_fields r
  exact hclass

theorem illegalOpcode_loadmemw (r : RegIdx) : illegalOpcode (simpleOpcode 0b0011 r) = none := by
  rw [illegalOpcode, classify_loadmemw]

theorem decode_loadmemw (r : RegIdx) (addr : Addr) (rest : List Byte) :
    decode (simpleOpcode 0b0011 r :: lowByte addr :: highByte addr :: rest) = .ok (.loadmemw r addr) := by
  obtain ⟨hreg, -⟩ := simpleOpcode_fields r
  have hlength : (classify (simpleOpcode 0b0011 r)).length ≤ (lowByte addr :: highByte addr :: rest).length + 1 := by
    rw [classify_loadmemw]
    exact Nat.le_add_left 3 _
  refine (decode_ok_iff _ _).mpr ⟨.loadMemWide r addr, ?_, rfl⟩
  rw [decodeShape_of_legal (illegalOpcode_loadmemw r) hlength, classify_loadmemw, assemble, hreg]
  exact congrArg (fun a => Except.ok (Shape.loadMemWide r a)) (joinBytes_low_high addr)

/-- The two branches of the access: the word's second byte lies beyond memory exactly at 0xFFFF. -/
theorem exec_loadmemw (r : RegIdx) (addr : Addr) (s : State) :
    exec (.loadmemw r addr) s =
      if addr.toNat = 0xFFFF then .next (faultedWith s .addressOutOfRange (some 0x10000))
      else .next { s with
        wide := s.wide.set r
          (BitVec.ofNat 16 ((s.mem.read addr.toNat).toNat + 256 * (s.mem.read (addr.toNat + 1)).toNat)),
        pc := s.pc + 3 } := by
  have haccess : exec (.loadmemw r addr) s =
      s.access (readWord s.mem addr.toNat) fun v => (s.writeWide r v).advance 3 := rfl
  have hsize : Config.memSize = 65536 := rfl
  have hlt := addr.isLt
  rw [haccess]
  split
  · next hlast =>
    rw [readWord_of_second_outside s.mem (by omega) (by omega), hlast]
    rfl
  · next hinside =>
    rw [readWord_of_inside s.mem (by omega), joinBytes_eq_ofNat]
    rfl

/-- Settles O27: the instruction by `exec_loadmemw`, the step over its bytes by `decode_loadmemw`, and the step where
they are cut off by `step_of_bytes_past_end`. -/
theorem loadmemwReadsTwoBytesLowFirst : Obligations.LoadmemwReadsTwoBytesLowFirst := by
  intro r addr s
  have hop : BitVec.ofNat 8 (0x30 + r.val) = simpleOpcode 0b0011 r := (simpleOpcode_eq_ofNat 0b0011 r).symm
  refine ⟨exec_loadmemw r addr s, fun hrun hbytes => ?_, fun hrun hlow hhigh hread => ?_⟩
  · rw [hop, ← lowByte_eq_ofNat, ← highByte_eq_ofNat] at hbytes
    exact step_of_bytesAt hrun hbytes (Nat.le_succ 3) (decode_loadmemw r addr)
  · have hopcode : s.mem.read s.pc = simpleOpcode 0b0011 r := hread.trans hop
    refine step_of_bytes_past_end hrun hhigh ?_ ?_
    · rw [hopcode, illegalOpcode_loadmemw]
    · rw [hopcode, classify_loadmemw]
      exact Nat.add_lt_add_right hlow 3

end Sys2Proof.Proofs
end

section
/-! The instructions of an opcode byte and an address (R65), three bytes long: the step over their bytes, and over their
opcode byte where memory ends before the address does. -/

namespace Sys2Proof.Proofs

open Sys2Proof.Machine Sys2Proof.Certificates

theorem decode_address_form {op : Byte} {addr : Addr} {i : Instr} (hlegal : illegalOpcode op = none)
    (hlength : (classify op).length = 3)
    (hfields : ∀ b3, Instr.ofShape (assemble (classify op) op (lowByte addr) (highByte addr) b3) = i)
    (rest : List Byte) : decode (op :: lowByte addr :: highByte addr :: rest) = .ok i := by
  have hpresent : (classify op).length ≤ (lowByte addr :: highByte addr :: rest).length + 1 :=
    hlength ▸ Nat.le_add_left 3 rest.length
  exact (decode_ok_iff _ _).mpr ⟨_, decodeShape_of_legal hlegal hpresent, hfields _⟩

theorem step_of_address_form {s : State} {op : Byte} {addr : Addr} {i : Instr} (hrun : s.status = .running)
    (hbytes : bytesAt s.mem s.pc [op, BitVec.ofNat 8 addr.toNat, BitVec.ofNat 8 (addr.toNat / 256)])
    (hlegal : illegalOpcode op = none) (hlength : (classify op).length = 3)
    (hfields : ∀ b3, Instr.ofShape (assemble (classify op) op (lowByte addr) (highByte addr) b3) = i) :
    step s = exec i s := by
  rw [← lowByte_eq_ofNat, ← highByte_eq_ofNat] at hbytes
  exact step_of_bytesAt hrun hbytes (Nat.le_succ 3) (decode_address_form hlegal hlength hfields)

theorem step_of_address_form_past_end {s : State} (hrun : s.status = .running) (hlow : 65533 < s.pc)
    (hhigh : s.pc < 65536) (hlegal : illegalOpcode (s.mem.read s.pc) = none)
    (hlength : (classify (s.mem.read s.pc)).length = 3) :
    step s = .next (faultedWith s .truncatedInstruction none) :=
  step_of_bytes_past_end hrun hhigh hlegal (hlength.symm ▸ Nat.add_lt_add_right hlow 3)

end Sys2Proof.Proofs
end

section
/-! The branches (R140, R141): what their opcode bytes decode to, and the pc they leave. The don't-care nibble of `jmp`
is the register field of its opcode byte, which `assemble` does not look at (R72). -/

namespace Sys2Proof.Proofs

open Sys2Proof.Machine Sys2Proof.Certificates

theorem classify_jmp (nibble : RegIdx) : classify (simpleOpcode 0b0110 nibble) = .jump := by
  obtain ⟨-, -, -, -, -, -, -, hclass, -⟩ := simpleOpcode_fields nibble
  exact hclass

theorem classify_jmpodd (r : RegIdx) : classify (simpleOpcode 0b0111 r) = .jumpIfOdd := by
  obtain ⟨-, -, -, -, -, -, -, -, hclass⟩ := simpleOpcode_fields r
  exact hclass

theorem illegalOpcode_jmp (nibble : RegIdx) : illegalOpcode (simpleOpcode 0b0110 nibble) = none := by
  rw [illegalOpcode, classify_jmp]

theorem illegalOpcode_jmpodd (r : RegIdx) : illegalOpcode (simpleOpcode 0b0111 r) = none := by
  rw [illegalOpcode, classify_jmpodd]

theorem length_classify_jmp (nibble : RegIdx) : (classify (simpleOpcode 0b0110 nibble)).length = 3 := by
  rw [classify_jmp, OpClass.length]

theorem length_classify_jmpodd (r : RegIdx) : (classify (simpleOpcode 0b0111 r)).length = 3 := by
  rw [classify_jmpodd, OpClass.length]

theorem assemble_jmp (nibble : RegIdx) (addr : Addr) (b3 : Byte) :
    Instr.ofShape (assemble (classify (simpleOpcode 0b0110 nibble)) (simpleOpcode 0b0110 nibble)
      (lowByte addr) (highByte addr) b3) = .jmp addr := by
  rw [classify_jmp, assemble, joinBytes_low_high, Instr.ofShape]

theorem assemble_jmpodd (r : RegIdx) (addr : Addr) (b3 : Byte) :
    Instr.ofShape (assemble (classify (simpleOpcode 0b0111 r)) (simpleOpcode 0b0111 r)
      (lowByte addr) (highByte addr) b3) = .jmpodd r addr := by
  obtain ⟨hreg, -⟩ := simpleOpcode_fields r
  rw [classify_jmpodd, assemble, hreg, joinBytes_low_high, Instr.ofShape]

theorem exec_jmp (addr : Addr) (s : State) : exec (.jmp addr) s = .next { s with pc := addr.toNat } := rfl

/-- Bit 0, which the model tests, is the parity of the register's value. -/
theorem getLsbD_zero_iff_odd {n : Nat} (v : BitVec n) : v.getLsbD 0 = true ↔ v.toNat % 2 = 1 := by
  rw [BitVec.getLsbD, Nat.testBit_zero, decide_eq_true_iff]

theorem exec_jmpodd (r : RegIdx) (addr : Addr) (s : State) :
    exec (.jmpodd r addr) s =
      .next { s with pc := if s.small[r].toNat % 2 = 1 then addr.toNat else s.pc + 3 } := by
  have hbit : exec (.jmpodd r addr) s =
      if s.small[r].getLsbD 0 then .next (s.jumpTo addr) else .next (s.advance 3) := rfl
  rw [hbit]
  by_cases hodd : s.small[r].toNat % 2 = 1
  · rw [if_pos ((getLsbD_zero_iff_odd _).mpr hodd), if_pos hodd, State.jumpTo]
  · rw [if_neg (mt (getLsbD_zero_iff_odd _).mp hodd), if_neg hodd, State.advance]

/-- Settles O30: at every value of the nibble the bytes decode to `jmp addr`, whose next state is `exec_jmp`. -/
theorem jmpGoesToItsAddress : Obligations.JmpGoesToItsAddress := by
  intro addr s
  have hop (nibble : RegIdx) : BitVec.ofNat 8 (0x60 + nibble.val) = simpleOpcode 0b0110 nibble :=
    (simpleOpcode_eq_ofNat 0b0110 nibble).symm
  refine ⟨exec_jmp addr s, fun hrun nibble hbytes => ?_, ?_⟩
  · rw [hop] at hbytes
    exact step_of_address_form hrun hbytes (illegalOpcode_jmp nibble) (length_classify_jmp nibble)
      (assemble_jmp nibble addr)
  · rintro hrun hlow hhigh ⟨nibble, hread⟩
    rw [hop] at hread
    exact step_of_address_form_past_end hrun hlow hhigh (hread ▸ illegalOpcode_jmp nibble)
      (hread ▸ length_classify_jmp nibble)

/-- Settles O31: taken and not taken by `exec_jmpodd`; the bytes decode to the same register and address. -/
theorem jmpoddGoesWhenOdd : Obligations.JmpoddGoesWhenOdd := by
  intro r addr s
  have hop : BitVec.ofNat 8 (0x70 + r.val) = simpleOpcode 0b0111 r := (simpleOpcode_eq_ofNat 0b0111 r).symm
  refine ⟨exec_jmpodd r addr s, fun hrun hbytes => ?_, fun hrun hlow hhigh hread => ?_⟩
  · rw [hop] at hbytes
    exact (step_of_address_form hrun hbytes (illegalOpcode_jmpodd r) (length_classify_jmpodd r)
      (assemble_jmpodd r addr)).trans (exec_jmpodd r addr s)
  · rw [hop] at hread
    exact step_of_address_form_past_end hrun hlow hhigh (hread ▸ illegalOpcode_jmpodd r)
      (hread ▸ length_classify_jmpodd r)

end Sys2Proof.Proofs
end

section
/-! Bit reversal (R155): the bits and the value of `reverseLow`, which the model builds one bit at a time, and that its
result at all `n` bits is not narrowed. -/

namespace Sys2Proof.Proofs

open Sys2Proof.Machine

/-- `reverseLow` doubles what it has and puts the next bit at the bottom. -/
theorem reverseLow_succ {n : Nat} (b : BitVec n) (k : Nat) :
    reverseLow b (k + 1) = Nat.bit (b.getLsbD k) (reverseLow b k) := by
  rw [reverseLow, Nat.bit_val]

theorem reverseLow_lt_two_pow {n : Nat} (b : BitVec n) (k : Nat) : reverseLow b k < 2 ^ k := by
  induction k with
  | zero => exact Nat.one_pos
  | succ k ih =>
    have hbit := Bool.toNat_le (b.getLsbD k)
    rw [reverseLow, Nat.pow_succ]
    omega

theorem testBit_reverseLow {n : Nat} (b : BitVec n) {k i : Nat} (h : i < k) :
    (reverseLow b k).testBit i = b.getLsbD (k - 1 - i) := by
  induction k generalizing i with
  | zero => exact absurd h (Nat.not_lt_zero i)
  | succ k ih =>
    rw [reverseLow_succ]
    cases i with
    | zero => rw [Nat.testBit_bit_zero, Nat.add_sub_cancel, Nat.sub_zero]
    | succ i =>
      rw [Nat.testBit_bit_succ, ih (Nat.lt_of_succ_lt_succ h), Nat.add_sub_cancel, Nat.sub_sub, Nat.add_comm i]

/-- Every bit but the newest has been doubled once more. -/
theorem reverseLow_eq_sum {n : Nat} (b : BitVec n) (k : Nat) :
    reverseLow b k = ∑ i ∈ Finset.range k, (b.getLsbD i).toNat * 2 ^ (k - 1 - i) := by
  induction k with
  | zero => rfl
  | succ k ih =>
    have hdouble : ∀ i ∈ Finset.range k,
        2 * ((b.getLsbD i).toNat * 2 ^ (k - 1 - i)) = (b.getLsbD i).toNat * 2 ^ (k - i) := by
      intro i hi
      have hexp : k - i = k - 1 - i + 1 := by have := Finset.mem_range.mp hi; omega
      rw [hexp, Nat.pow_succ']
      exact Nat.mul_left_comm ..
    rw [reverseLow, ih, Finset.mul_sum, Finset.sum_congr rfl hdouble, Finset.sum_range_succ, Nat.add_sub_cancel,
      Nat.sub_self, Nat.pow_zero, Nat.mul_one]

theorem toNat_aluReverse {n : Nat} (a b : BitVec n) : (aluReverse a b).toNat = reverseLow b n := by
  rw [aluReverse, BitVec.toNat_ofNat, Nat.mod_eq_of_lt (reverseLow_lt_two_pow b n)]

theorem getLsbD_aluReverse {n : Nat} (a b : BitVec n) {i : Nat} (h : i < n) :
    (aluReverse a b).getLsbD i = b.getLsbD (n - 1 - i) := by
  rw [BitVec.getLsbD, toNat_aluReverse, testBit_reverseLow b h]

/-- Mirroring an index twice gives it back. -/
theorem aluReverse_aluReverse {n : Nat} (a a' b : BitVec n) : aluReverse a' (aluReverse a b) = b := by
  refine BitVec.eq_of_getLsbD_eq fun i hi => ?_
  have hmirror : n - 1 - (n - 1 - i) = i := by omega
  rw [getLsbD_aluReverse _ _ hi, getLsbD_aluReverse _ _ (by omega), hmirror]

/-- Settles O41: the bits are `getLsbD_aluReverse`, the sum is `reverseLow_eq_sum`, at any number of bits. -/
theorem reverseMirrorsEveryBit : Obligations.ReverseMirrorsEveryBit :=
  fun w a a' b => ⟨fun _ hi => getLsbD_aluReverse a b hi,
    (toNat_aluReverse a b).trans (reverseLow_eq_sum b w.bits), aluReverse_aluReverse a a' b⟩

end Sys2Proof.Proofs
end

section
/-! The count of set bits (R157): `popcountLow` of the low `k` bits is the size of the set of their positions, so it is
bounded by `k` and its two extreme values decide every bit. -/

namespace Sys2Proof.Proofs

open Sys2Proof.Machine

theorem popcountLow_eq_card {n : Nat} (b : BitVec n) (k : Nat) :
    popcountLow b k = ((Finset.range k).filter fun i => b.getLsbD i = true).card := by
  induction k with
  | zero => rfl
  | succ k ih =>
    rw [popcountLow, ih, Finset.card_filter, Finset.card_filter, Finset.sum_range_succ, Bool.toNat, Bool.cond_eq_ite]

theorem popcountLow_le {n : Nat} (b : BitVec n) (k : Nat) : popcountLow b k ≤ k := by
  calc popcountLow b k = ((Finset.range k).filter fun i => b.getLsbD i = true).card := popcountLow_eq_card b k
    _ ≤ (Finset.range k).card := Finset.card_filter_le _ _
    _ = k := Finset.card_range k

theorem popcountLow_eq_zero_iff {n : Nat} (b : BitVec n) (k : Nat) :
    popcountLow b k = 0 ↔ ∀ i < k, b.getLsbD i = false := by
  simp only [popcountLow_eq_card, Finset.card_eq_zero, Finset.filter_eq_empty_iff, Finset.mem_range, Bool.not_eq_true]

theorem popcountLow_eq_self_iff {n : Nat} (b : BitVec n) (k : Nat) :
    popcountLow b k = k ↔ ∀ i < k, b.getLsbD i = true := by
  have hcard := Finset.card_filter_eq_iff (s := Finset.range k) (p := fun i => b.getLsbD i = true)
  simpa only [← popcountLow_eq_card, Finset.card_range, Finset.mem_range] using hcard

/-- A count of at most n bits fits in n bits. -/
theorem toNat_aluNumzeros {n : Nat} (a b : BitVec n) : (aluNumzeros a b).toNat = popcountLow b n := by
  have hfits : popcountLow b n < 2 ^ n := (popcountLow_le b n).trans_lt Nat.lt_two_pow_self
  rw [aluNumzeros, BitVec.toNat_ofNat, Nat.mod_eq_of_lt hfits]

theorem aluNumzeros_eq_zero_iff {n : Nat} (a b : BitVec n) : (aluNumzeros a b).toNat = 0 ↔ b = 0 := by
  rw [toNat_aluNumzeros, popcountLow_eq_zero_iff]
  constructor
  · exact fun hclear => BitVec.eq_of_getLsbD_eq fun i hi => (hclear i hi).trans BitVec.getLsbD_zero.symm
  · rintro rfl i -
    exact BitVec.getLsbD_zero

theorem aluNumzeros_eq_bits_iff {n : Nat} (a b : BitVec n) : (aluNumzeros a b).toNat = n ↔ b = BitVec.allOnes n := by
  rw [toNat_aluNumzeros, popcountLow_eq_self_iff]
  constructor
  · intro hset
    refine BitVec.eq_of_getLsbD_eq fun i hi => ?_
    rw [hset i hi, BitVec.getLsbD_allOnes, decide_eq_true hi]
  · rintro rfl i hi
    rw [BitVec.getLsbD_allOnes, decide_eq_true hi]

/-- Settles O42: the count is `popcountLow_eq_card`, and a count of 0 or of all bits decides every bit. -/
theorem numzerosCountsTheSetBits : Obligations.NumzerosCountsTheSetBits :=
  fun w a b => ⟨(toNat_aluNumzeros a b).trans (popcountLow_eq_card b w.bits),
    (toNat_aluNumzeros a b).trans_le (popcountLow_le b w.bits),
    aluNumzeros_eq_zero_iff a b, aluNumzeros_eq_bits_iff a b⟩

end Sys2Proof.Proofs
end

section
/-! The two treatments of a result beyond the width (R184) and the value of a comparison (R178), and the operations that
use them. -/

namespace Sys2Proof.Proofs

open Sys2Proof.Machine

theorem toNat_saturate (n v : Nat) : (saturate n v).toNat = min v (2 ^ n - 1) := by
  have hfits : min v (2 ^ n - 1) < 2 ^ n := by have := Nat.two_pow_pos n; omega
  rw [saturate, maxOf, BitVec.toNat_ofNat, Nat.mod_eq_of_lt hfits]

theorem toNat_wrap (n v : Nat) : (wrap n v).toNat = v % 2 ^ n := BitVec.toNat_ofNat v n

/-- A difference never exceeds MAX, so only the clamp at 0 acts. -/
theorem toNat_aluSubc {n : Nat} (a b : BitVec n) :
    (aluSubc a b).toNat = if b.toNat ≤ a.toNat then a.toNat - b.toNat else 0 := by
  have hlt := a.isLt
  rw [aluSubc, toNat_saturate, Nat.min_eq_left (by omega)]
  split
  · rfl
  · next hless => exact Nat.sub_eq_zero_of_le (Nat.le_of_not_le hless)

/-- Settles O39: `addc` and `mulc` are the exact result under `saturate`. -/
theorem saturatingOperationsClamp : Obligations.SaturatingOperationsClamp :=
  fun w a b => ⟨toNat_saturate w.bits (a.toNat + b.toNat), toNat_aluSubc a b,
    toNat_saturate w.bits (a.toNat * b.toNat)⟩

theorem toNat_aluSubm {n : Nat} (a b : BitVec n) :
    (aluSubm a b).toNat = (a.toNat + 2 ^ n - b.toNat) % 2 ^ n := by
  rw [aluSubm, BitVec.toNat_sub, Nat.add_comm, Nat.add_sub_assoc b.isLt.le]

/-- Settles O40: `mulm` is the exact result under `wrap`; `addm` and `subm` are those of bit vectors. -/
theorem modularOperationsWrap : Obligations.ModularOperationsWrap :=
  fun w a b => ⟨BitVec.toNat_add a b, toNat_aluSubm a b, toNat_wrap w.bits (a.toNat * b.toNat)⟩

/-- The value of a comparison `c` of which `p` says when it is true; a width has a bit to hold the 1. -/
theorem toNat_truthValue (w : Width) {c : Bool} {p : Prop} [Decidable p] (h : c = true ↔ p) :
    (truthValue c : BitVec w.bits).toNat = if p then 1 else 0 := by
  simp only [truthValue, h]
  split
  · cases w <;> rfl
  · exact BitVec.toNat_zero

/-- Settles O43: each comparison is the truth value of a comparison of the two numbers. -/
theorem comparisonsGiveOneOrZero : Obligations.ComparisonsGiveOneOrZero := by
  intro w a b
  have hne : (a != b) = true ↔ ¬ a.toNat = b.toNat := by rw [bne_iff_ne, Ne, BitVec.toNat_inj]
  refine ⟨toNat_truthValue w decide_eq_true_iff, toNat_truthValue w decide_eq_true_iff,
    toNat_truthValue w decide_eq_true_iff, toNat_truthValue w decide_eq_true_iff,
    toNat_truthValue w (beq_iff_eq.trans BitVec.toNat_inj.symm), ?_⟩
  exact (toNat_truthValue w hne).trans (ite_not ..)

end Sys2Proof.Proofs
end

section
/-! The illegal opcode bytes (R71, R204): an arithmetic class with an unassigned selector is decided from its opcode byte
alone, and its instruction takes InvalidOperation whichever class it is. -/

namespace Sys2Proof.Proofs

open Sys2Proof.Machine Sys2Proof.Certificates

/-- The opcode byte of an arithmetic class as a number: the class in bits 7:5, the selector in bits 4:0 (R64). -/
theorem arithOpcode_eq_ofNat (c : ArithClass) (sel : Selector) :
    arithOpcode c sel = BitVec.ofNat 8 (32 * c.code.toNat + sel.toNat) := by
  revert sel; cases c <;> decide

/-- The first opcode bytes of the arithmetic classes (R63). -/
theorem exists_arithClass_of_mem {cls : Nat} (h : cls ∈ [0x80, 0xA0, 0xC0, 0xE0]) :
    ∃ c : ArithClass, cls = 32 * c.code.toNat := by
  simp only [List.mem_cons, List.not_mem_nil, or_false] at h
  obtain rfl | rfl | rfl | rfl := h
  · exact ⟨.binOpSmall, rfl⟩
  · exact ⟨.binOpWide, rfl⟩
  · exact ⟨.binOpImmSmall, rfl⟩
  · exact ⟨.binOpImmWide, rfl⟩

/-- R73 checks the selector before the operand bytes, so none of `rest` is asked for. -/
theorem decode_illegal (c : ArithClass) {sel : Selector} (hsel : unassignedSelector sel = true) (rest : List Byte) :
    decode (arithOpcode c sel :: rest) = .ok (.ofShape (.invalidSelector c sel)) := by
  refine (decode_ok_iff _ _).mpr ⟨.invalidSelector c sel, ?_, rfl⟩
  simp only [decodeShape, illegalOpcode_arithOpcode, hsel, if_true, selectorField_arithOpcode]

theorem toShape_ofShape_invalidSelector (c : ArithClass) (sel : Selector) :
    (Instr.ofShape (.invalidSelector c sel)).toShape = .invalidSelector c sel := by
  cases c <;> rfl

theorem exec_illegal (c : ArithClass) (sel : Selector) (s : State) :
    exec (.ofShape (.invalidSelector c sel)) s = .next (faultedWith s .invalidOperation none) := by
  rw [exec_eq_execShape, toShape_ofShape_invalidSelector]
  exact takeInvalidOperation_eq s

/-- Settles O16: the byte at pc is the opcode byte of some arithmetic class, so the step over it is `exec_illegal`. -/
theorem invalidSelectorTakesInvalidOperation : Obligations.InvalidSelectorTakesInvalidOperation := by
  refine fun sel s => ⟨exec_illegal .binOpSmall sel s, exec_illegal .binOpWide sel s,
    exec_illegal .binOpImmSmall sel s, exec_illegal .binOpImmWide sel s, ?_⟩
  rintro hsel hrun ⟨cls, hcls, hbytes⟩
  obtain ⟨c, rfl⟩ := exists_arithClass_of_mem hcls
  rw [← arithOpcode_eq_ofNat] at hbytes
  exact (step_of_bytesAt hrun hbytes (Nat.le_add_left 1 3) (decode_illegal c (decide_eq_true hsel))).trans
    (exec_illegal c sel s)

end Sys2Proof.Proofs
end

section
/-! InvalidOperation (R221): the eight bytes are those that `illegalOpcode` names, and an instruction that a legal byte
begins runs some operation, so its only fault is AddressOutOfRange. -/

namespace Sys2Proof.Proofs

open Sys2Proof.Machine Sys2Proof.Certificates

theorem mem_illegalBytes_iff (op : Byte) : op ∈ illegalBytes ↔ illegalOpcode op ≠ none := by
  revert op; decide

/-- Running the instruction that a shape is named as is running the shape: the thirty assigned selectors name the
operation that the reference map looks up, and the other two take InvalidOperation on both sides (R69, R204). -/
theorem exec_ofShape (sh : Shape) (s : State) : exec (.ofShape sh) s = execShape referenceMap sh s := by
  cases sh with
  | binOpSmall sel | binOpWide sel | binOpImmSmall sel | binOpImmWide sel =>
    obtain ⟨n, hn⟩ := sel
    interval_cases n <;> rfl
  | invalidSelector c => cases c <;> rfl
  | _ => rfl

/-- Whether a shape names no operation: an arithmetic class with selector 30 or 31 (R204). -/
def namesNoOperation : Shape → Bool
  | .binOpSmall sel _ _ => unassignedSelector sel
  | .binOpWide sel _ _ => unassignedSelector sel
  | .binOpImmSmall sel _ _ _ => unassignedSelector sel
  | .binOpImmWide sel _ _ _ => unassignedSelector sel
  | .invalidSelector _ _ => true
  | _ => false

theorem namesNoOperation_assemble {op : Byte} (hlegal : illegalOpcode op = none) (b1 b2 b3 : Byte) :
    namesNoOperation (assemble (classify op) op b1 b2 b3) = false := by
  unfold illegalOpcode at hlegal
  cases hclass : classify op with
  | arith c =>
    have hassigned : unassignedSelector (selectorField op) = false := by simpa [hclass] using hlegal
    cases c <;> exact hassigned
  | _ => rfl

theorem exists_lookup_of_assigned (m : Config.SelectorMap) {sel : Selector} (h : unassignedSelector sel = false) :
    ∃ op, m.lookup sel = some op := by
  have hlt : sel.toNat < m.ops.length := by
    rw [m.length_ops]
    exact Nat.lt_of_not_le (of_decide_eq_false h)
  exact ⟨_, List.getElem?_eq_getElem hlt⟩

/-- A shape that names an operation keeps status, or takes the one fault of a memory access (R222). -/
theorem execShape_status_cases {m : Config.SelectorMap} {sh : Shape} {s t : State}
    (hnamed : namesNoOperation sh = false) (h : execShape m sh s = .next t) :
    t.status = s.status ∨ ∃ a, t.status = .faulted ⟨.addressOutOfRange, s.pc, some a⟩ := by
  cases sh with
  | output | outputWide | jump => cases h; exact .inl rfl
  | loadMem | loadMemWide | storeMem | storeMemWide =>
    obtain ⟨v, -, rfl⟩ | ⟨a, -, rfl⟩ := (State.access_next_iff _ _ _ _).mp h
    · exact .inl rfl
    · exact .inr ⟨a, rfl⟩
  | jumpIfOdd =>
    simp only [execShape, execJmpodd] at h
    split at h <;> cases h <;> exact .inl rfl
  | binOpSmall | binOpWide | binOpImmSmall | binOpImmWide =>
    obtain ⟨op, hop⟩ := exists_lookup_of_assigned m hnamed
    simp only [execShape, withOperation, hop] at h
    cases h
    exact .inl rfl
  | invalidSelector => cases hnamed

theorem fetchWindow_of_outside (m : Memory) {pc : Nat} (h : Config.memSize ≤ pc) : fetchWindow m pc = [] :=
  if_neg fun hin => Nat.not_lt.mpr h ((inMemory_iff pc).mp hin)

theorem step_of_illegalOpcode {s : State} {c : ArithClass} (hrun : s.status = .running)
    (hpc : s.pc < Config.memSize) (hillegal : illegalOpcode (s.mem.read s.pc) = some c) :
    step s = .next (faultedWith s .invalidOperation none) := by
  have hdec : decode (fetchWindow s.mem s.pc) =
      .ok (.ofShape (.invalidSelector c (selectorField (s.mem.read s.pc)))) := by
    refine (decode_ok_iff _ _).mpr ⟨_, ?_, rfl⟩
    simp only [fetchWindow_of_inside s.mem hpc, decodeShape, hillegal]
  exact (step_decoded hrun hdec).trans (exec_illegal c _ s)

/-- A decode fault is one of the other two kinds (R73). -/
theorem raiseDecodeError_kind {s : State} {e : DecodeError} {r : FaultRecord}
    (h : (s.raiseDecodeError e).status = .faulted r) : r.kind ≠ .invalidOperation := by
  cases e <;> cases h <;> exact nofun

/-- A step that takes InvalidOperation has fetched an opcode byte, and an illegal one. -/
theorem illegalOpcode_of_step_invalidOperation {s t : State} {r : FaultRecord} (h : step s = .next t)
    (hfault : t.status = .faulted r) (hkind : r.kind = .invalidOperation) :
    s.pc < Config.memSize ∧ illegalOpcode (s.mem.read s.pc) ≠ none := by
  obtain ⟨hrun, ⟨i, hdec, hexec⟩ | ⟨e, -, rfl⟩⟩ := step_next_cases h
  · obtain ⟨sh, hshape, rfl⟩ := (decode_ok_iff _ _).mp hdec
    have hpc : s.pc < Config.memSize := by
      by_contra hout
      rw [fetchWindow_of_outside s.mem (Nat.not_lt.mp hout)] at hshape
      cases hshape
    refine ⟨hpc, fun hlegal => ?_⟩
    have hnamed : namesNoOperation sh = false := by
      rw [fetchWindow_of_inside s.mem hpc] at hshape
      obtain ⟨c, hillegal, -⟩ | ⟨-, -, htrunc⟩ | ⟨-, -, hok⟩ := decodeShape_cases (s.mem.read s.pc) _
      · cases hlegal.symm.trans hillegal
      · cases htrunc.symm.trans hshape
      · cases hok.symm.trans hshape
        exact namesNoOperation_assemble hlegal _ _ _
    rw [exec_ofShape] at hexec
    obtain hsame | ⟨a, haccess⟩ := execShape_status_cases hnamed hexec
    · cases hfault.symm.trans (hsame.trans hrun)
    · cases hfault.symm.trans haccess
      cases hkind
  · exact absurd hkind (raiseDecodeError_kind hfault)

/-- Settles O12: one direction is `step_of_illegalOpcode`, the other `illegalOpcode_of_step_invalidOperation`. -/
theorem invalidOperationExactlyAtTheEightOpcodes : Obligations.InvalidOperationExactlyAtTheEightOpcodes := by
  refine ⟨rfl, fun s hrun => ⟨fun ⟨hpc, hmem⟩ => ?_, fun ⟨t, r, hstep, hfault, hkind⟩ => ?_⟩⟩
  · obtain ⟨c, hillegal⟩ := Option.ne_none_iff_exists'.mp ((mem_illegalBytes_iff _).mp hmem)
    exact step_of_illegalOpcode hrun hpc hillegal
  · obtain ⟨hpc, hillegal⟩ := illegalOpcode_of_step_invalidOperation hstep hfault hkind
    exact ⟨hpc, (mem_illegalBytes_iff _).mpr hillegal⟩

end Sys2Proof.Proofs
end

section
/-! `step` is the selector machine at the reference map (R68, R69): both decode the same window, and naming the shape
changes nothing of what runs. -/

namespace Sys2Proof.Proofs

open Sys2Proof.Machine

theorem stepWith_referenceMap_eq_step (s : State) : stepWith referenceMap s = step s := by
  cases hstatus : s.status with
  | faulted r => simp only [stepWith, step, hstatus]
  | running =>
    cases hshape : decodeShape (fetchWindow s.mem s.pc) with
    | error e => simp only [stepWith, step, hstatus, decode, hshape]
    | ok sh => simp only [stepWith, step, hstatus, decode, hshape, exec_ofShape]

/-- Settles O10, by `exec_ofShape` on the decoded shape. -/
theorem stepIsTheSelectorMachineAtTheReferenceMap : Obligations.StepIsTheSelectorMachineAtTheReferenceMap :=
  stepWith_referenceMap_eq_step

end Sys2Proof.Proofs
end

section
/-! The round trip of the encoding (R75). Shapes first, where twelve classes are to be looked at; then instructions,
which are their shapes named under the reference map (R69). -/

namespace Sys2Proof.Proofs

open Sys2Proof.Machine

/-- Bits 7:4 of the opcode bytes of the simple classes (R62). -/
def simpleCode : OpClass → BitVec 4
  | .output => 0b0000
  | .outputWide => 0b0001
  | .loadMem => 0b0010
  | .loadMemWide => 0b0011
  | .storeMem => 0b0100
  | .storeMemWide => 0b0101
  | .jump => 0b0110
  | .jumpIfOdd => 0b0111
  | .arith _ => 0b1000

theorem classify_simpleOpcode {c : OpClass} (hsimple : ∀ a, c ≠ .arith a) (r : RegIdx) :
    classify (simpleOpcode (simpleCode c) r) = c := by
  obtain ⟨-, hout, houtw, hload, hloadw, hstore, hstorew, hjump, hodd⟩ := simpleOpcode_fields r
  cases c with
  | arith a => exact absurd rfl (hsimple a)
  | _ => assumption

@[simp] theorem loNibble_simpleOpcode (code : BitVec 4) (r : RegIdx) : loNibble (simpleOpcode code r) = r := by
  obtain ⟨hreg, -⟩ := simpleOpcode_fields r
  exact hreg code

theorem decodeShape_simple {c : OpClass} (hsimple : ∀ a, c ≠ .arith a) (r : RegIdx) {rest : List Byte}
    (hlength : c.length ≤ rest.length + 1) :
    decodeShape (simpleOpcode (simpleCode c) r :: rest) =
      .ok (assemble c (simpleOpcode (simpleCode c) r) (rest.getD 0 0) (rest.getD 1 0) (rest.getD 2 0)) := by
  have hclass := classify_simpleOpcode hsimple r
  have hlegal : illegalOpcode (simpleOpcode (simpleCode c) r) = none := by
    unfold illegalOpcode
    rw [hclass]
    cases c with
    | arith a => exact absurd rfl (hsimple a)
    | _ => rfl
  rw [decodeShape_of_legal hlegal (hclass.symm ▸ hlength), hclass]

theorem decodeShape_arith (c : ArithClass) {sel : Selector} (hassigned : (!unassignedSelector sel) = true)
    {rest : List Byte} (hlength : (OpClass.arith c).length ≤ rest.length + 1) :
    decodeShape (arithOpcode c sel :: rest) =
      .ok (assemble (.arith c) (arithOpcode c sel) (rest.getD 0 0) (rest.getD 1 0) (rest.getD 2 0)) := by
  have hlegal : illegalOpcode (arithOpcode c sel) = none := by
    rw [illegalOpcode_arithOpcode, if_neg (by simpa using hassigned)]
  rw [decodeShape_of_legal hlegal ((classify_arithOpcode c sel).symm ▸ hlength), classify_arithOpcode]

/-- The opcode byte is legal and of the shape's class, all operand bytes are there, and each field reads back. -/
theorem decodeShape_encodeShape {sh : Shape} (hwf : sh.wellFormed = true) (rest : List Byte) :
    decodeShape (encodeShape sh ++ rest) = .ok sh := by
  cases sh with
  | output r => exact (decodeShape_simple (c := .output) nofun r (Nat.le_add_left 1 _)).trans (by simp [assemble])
  | outputWide r =>
    exact (decodeShape_simple (c := .outputWide) nofun r (Nat.le_add_left 1 _)).trans (by simp [assemble])
  | loadMem r => exact (decodeShape_simple (c := .loadMem) nofun r (Nat.le_add_left 3 _)).trans (by simp [assemble])
  | loadMemWide r =>
    exact (decodeShape_simple (c := .loadMemWide) nofun r (Nat.le_add_left 3 _)).trans (by simp [assemble])
  | storeMem r => exact (decodeShape_simple (c := .storeMem) nofun r (Nat.le_add_left 3 _)).trans (by simp [assemble])
  | storeMemWide r =>
    exact (decodeShape_simple (c := .storeMemWide) nofun r (Nat.le_add_left 3 _)).trans (by simp [assemble])
  | jump => exact (decodeShape_simple (c := .jump) nofun 0 (Nat.le_add_left 3 _)).trans (by simp [assemble])
  | jumpIfOdd r => exact (decodeShape_simple (c := .jumpIfOdd) nofun r (Nat.le_add_left 3 _)).trans (by simp [assemble])
  | binOpSmall => exact (decodeShape_arith .binOpSmall hwf (Nat.le_add_left 2 _)).trans (by simp [assemble])
  | binOpWide => exact (decodeShape_arith .binOpWide hwf (Nat.le_add_left 2 _)).trans (by simp [assemble])
  | binOpImmSmall => exact (decodeShape_arith .binOpImmSmall hwf (Nat.le_add_left 3 _)).trans (by simp [assemble])
  | binOpImmWide => exact (decodeShape_arith .binOpImmWide hwf (Nat.le_add_left 4 _)).trans (by simp [assemble])
  | invalidSelector c sel =>
    have hunassigned : unassignedSelector sel = true := hwf
    simp [encodeShape, decodeShape, illegalOpcode_arithOpcode, hunassigned]

theorem ofShape_toShape (i : Instr) : Instr.ofShape i.toShape = i := by
  cases i <;> rfl

theorem wellFormed_toShape (i : Instr) : i.toShape.wellFormed = i.wellFormed := by
  cases i <;> rfl

theorem decode_encode {i : Instr} (hwf : i.wellFormed = true) (rest : List Byte) :
    decode (encode i ++ rest) = .ok i :=
  (decode_ok_iff _ _).mpr
    ⟨i.toShape, decodeShape_encodeShape ((wellFormed_toShape i).trans hwf) rest, ofShape_toShape i⟩

/-- Settles O1: the round trip of the instruction's shape (`decodeShape_encodeShape`), named back (`ofShape_toShape`). -/
theorem decodeInvertsEncode : Obligations.DecodeInvertsEncode :=
  fun _ rest hwf => decode_encode hwf rest

end Sys2Proof.Proofs
end

section
/-! The converse (R72, R75): a window that decodes begins with the bytes of what it decodes to. Every opcode byte is
the one that its class and its low bits spell, so a legal window is the encoding of its fields. -/

namespace Sys2Proof.Proofs

open Sys2Proof.Machine

theorem arithOpcode_selectorField {op : Byte} {c : ArithClass} (h : classify op = .arith c) :
    arithOpcode c (selectorField op) = op := by
  revert op; cases c <;> decide

/-- The opcode byte of a simple class is spelled by the class's code and its low nibble. -/
theorem simpleOpcode_loNibble {op : Byte} {c : OpClass} (hclass : classify op = c) (hsimple : ∀ a, c ≠ .arith a) :
    simpleOpcode (simpleCode c) (loNibble op) = op := by
  revert op
  cases c with
  | arith a => exact absurd rfl (hsimple a)
  | _ => decide

/-- The bytes of a shape, with any nibble for the one of `jmp` that is not looked at (R72). -/
def spellings (sh : Shape) (nibble : RegIdx) : List Byte :=
  match sh with
  | .jump addr => [simpleOpcode 0b0110 nibble, lowByte addr, highByte addr]
  | _ => encodeShape sh

theorem exists_cons_of_length {n : Nat} {l : List Byte} (h : n + 1 ≤ l.length) :
    ∃ x tail, l = x :: tail ∧ n ≤ tail.length := by
  cases l with
  | nil => cases h
  | cons x tail => exact ⟨x, tail, rfl, Nat.le_of_succ_le_succ h⟩

/-- A window of full length begins with a spelling of the shape that `assemble` reads from it. -/
theorem spellings_assemble_prefix {op : Byte} {rest : List Byte} {c : OpClass} (hclass : classify op = c)
    (hlength : c.length ≤ rest.length + 1) :
    spellings (assemble c op (rest.getD 0 0) (rest.getD 1 0) (rest.getD 2 0)) (loNibble op) <+: op :: rest := by
  cases c with
  | output | outputWide =>
    have hop := simpleOpcode_loNibble hclass nofun
    rw [simpleCode] at hop
    simp only [assemble, spellings, encodeShape, hop]
    exact List.prefix_append [op] rest
  | loadMem | loadMemWide | storeMem | storeMemWide | jump | jumpIfOdd =>
    have hop := simpleOpcode_loNibble hclass nofun
    obtain ⟨b1, rest, rfl, hmore⟩ := exists_cons_of_length (Nat.le_of_succ_le_succ hlength)
    obtain ⟨b2, rest, rfl, -⟩ := exists_cons_of_length hmore
    rw [simpleCode] at hop
    simp only [assemble, spellings, encodeShape, hop, List.getD_cons_zero, List.getD_cons_succ, lowByte_joinBytes,
      highByte_joinBytes]
    exact List.prefix_append [op, b1, b2] rest
  | arith c =>
    have hop := arithOpcode_selectorField hclass
    cases c with
    | binOpSmall | binOpWide =>
      obtain ⟨b1, rest, rfl, -⟩ := exists_cons_of_length (Nat.le_of_succ_le_succ hlength)
      simp only [assemble, spellings, encodeShape, hop, List.getD_cons_zero, pairByte_hi_lo]
      exact List.prefix_append [op, b1] rest
    | binOpImmSmall =>
      obtain ⟨b1, rest, rfl, hmore⟩ := exists_cons_of_length (Nat.le_of_succ_le_succ hlength)
      obtain ⟨b2, rest, rfl, -⟩ := exists_cons_of_length hmore
      simp only [assemble, spellings, encodeShape, hop, List.getD_cons_zero, List.getD_cons_succ, pairByte_hi_lo]
      exact List.prefix_append [op, b1, b2] rest
    | binOpImmWide =>
      obtain ⟨b1, rest, rfl, hmore⟩ := exists_cons_of_length (Nat.le_of_succ_le_succ hlength)
      obtain ⟨b2, rest, rfl, hlast⟩ := exists_cons_of_length hmore
      obtain ⟨b3, rest, rfl, -⟩ := exists_cons_of_length hlast
      simp only [assemble, spellings, encodeShape, hop, List.getD_cons_zero, List.getD_cons_succ, pairByte_hi_lo,
        lowByte_joinBytes, highByte_joinBytes]
      exact List.prefix_append [op, b1, b2, b3] rest

theorem wellFormed_of_namesNoOperation {sh : Shape} (h : namesNoOperation sh = false) : sh.wellFormed = true := by
  cases sh with
  | binOpSmall | binOpWide | binOpImmSmall | binOpImmWide => exact (Bool.not_eq_true' _).mpr h
  | invalidSelector => cases h
  | _ => rfl

theorem classify_of_illegalOpcode {op : Byte} {c : ArithClass} (h : illegalOpcode op = some c) :
    classify op = .arith c ∧ unassignedSelector (selectorField op) = true := by
  unfold illegalOpcode at h
  split at h
  · next d hclass =>
    obtain ⟨hunassigned, heq⟩ := (Option.ite_none_right_eq_some ..).mp h
    cases heq
    exact ⟨hclass, hunassigned⟩
  · cases h

/-- What a window that decodes to a shape looks like. -/
theorem decodeShape_ok {window : List Byte} {sh : Shape} (h : decodeShape window = .ok sh) :
    sh.wellFormed = true ∧ ∃ nibble, spellings sh nibble <+: window := by
  cases window with
  | nil => cases h
  | cons op rest =>
    obtain ⟨c, hillegal, hok⟩ | ⟨-, -, htrunc⟩ | ⟨hlegal, hlength, hok⟩ := decodeShape_cases op rest
    · cases hok.symm.trans h
      obtain ⟨hclass, hunassigned⟩ := classify_of_illegalOpcode hillegal
      refine ⟨hunassigned, 0, ?_⟩
      simp only [spellings, encodeShape, arithOpcode_selectorField hclass]
      exact List.prefix_append [op] rest
    · cases htrunc.symm.trans h
    · cases hok.symm.trans h
      have hnamed := namesNoOperation_assemble hlegal (rest.getD 0 0) (rest.getD 1 0) (rest.getD 2 0)
      exact ⟨wellFormed_of_namesNoOperation hnamed, _, spellings_assemble_prefix rfl hlength⟩

theorem toNat_lt_of_assigned {sel : Selector} (h : (!unassignedSelector sel) = true) : sel.toNat < 30 := by
  rw [unassignedSelector, Bool.not_eq_true', decide_eq_false_iff_not] at h
  exact Nat.lt_of_not_le h

/-- Naming a well-formed shape loses nothing: an assigned selector is the one its instruction is encoded with. -/
theorem toShape_ofShape {sh : Shape} (hwf : sh.wellFormed = true) : (Instr.ofShape sh).toShape = sh := by
  cases sh with
  | binOpSmall sel | binOpWide sel | binOpImmSmall sel | binOpImmWide sel =>
    obtain ⟨n, hn⟩ := sel
    have hlt : n < 30 := toNat_lt_of_assigned hwf
    interval_cases n <;> rfl
  | invalidSelector c => cases c <;> rfl
  | _ => rfl

/-- What a window that decodes to an instruction looks like: `spellings` differs from the encoding for `jmp` alone. -/
theorem decode_ok {window : List Byte} {i : Instr} (h : decode window = .ok i) :
    i.wellFormed = true ∧ ∃ nibble, spellings i.toShape nibble <+: window := by
  obtain ⟨sh, hshape, rfl⟩ := (decode_ok_iff _ _).mp h
  obtain ⟨hwf, hprefix⟩ := decodeShape_ok hshape
  rw [← wellFormed_toShape, toShape_ofShape hwf]
  exact ⟨hwf, hprefix⟩

/-- The spellings of an instruction are its encoding, or it is a `jmp` and they are those of its nibbles. -/
theorem spellings_toShape (i : Instr) (nibble : RegIdx) :
    spellings i.toShape nibble = encode i ∨
      ∃ addr, i = .jmp addr ∧
        spellings i.toShape nibble = [BitVec.ofNat 8 (0x60 + nibble.val), lowByte addr, highByte addr] := by
  cases i with
  | jmp addr => exact .inr ⟨addr, rfl, congrArg (· :: _) (simpleOpcode_eq_ofNat 0b0110 nibble)⟩
  | _ => exact .inl rfl

theorem length_spellings_toShape (i : Instr) (nibble : RegIdx) : (spellings i.toShape nibble).length = i.length := by
  cases i <;> rfl

/-- Settles O2: the window begins with a spelling of its instruction (`decode_ok`), which is its encoding or that of a
`jmp` with its nibble (`spellings_toShape`). -/
theorem decodedWindowBeginsWithTheEncoding : Obligations.DecodedWindowBeginsWithTheEncoding := by
  intro window i h
  obtain ⟨hwf, nibble, tail, rfl⟩ := decode_ok h
  refine ⟨hwf, ?_⟩
  obtain henc | ⟨addr, rfl, hjmp⟩ := spellings_toShape i nibble
  · exact .inl ⟨tail, by rw [henc]⟩
  · exact .inr ⟨addr, nibble, tail, rfl, by rw [hjmp]; rfl⟩

end Sys2Proof.Proofs
end

section
/-! Memory as a function of addresses (R51, R53): what a read gives after a write, and that a memory in canonical form is
determined by its reads. The key fact is `read_of_above`: at and below an address that every listed one exceeds, each
byte is unlisted. -/

namespace Sys2Proof.Proofs

open Sys2Proof.Machine

theorem read_of_above {m : Memory} {a b : Nat} (habove : m.above a) (hb : b ≤ a) : m.read b = Memory.unlisted := by
  induction m with
  | nil => rfl
  | cons c rest ih =>
    have hc : a < c.1 := habove c List.mem_cons_self
    rw [Memory.read, if_neg (by omega)]
    exact ih fun d hd => habove d (List.mem_cons_of_mem c hd)

theorem above_of_lt_head {a : Nat} {c : Host.Cell} {rest : Memory} (hlt : a < c.1) (habove : rest.above c.1) :
    Memory.above (c :: rest) a :=
  List.forall_mem_cons.mpr ⟨hlt, fun d hd => hlt.trans (habove d hd)⟩

theorem read_cons {m : Memory} {a : Nat} (v : Byte) (habove : m.above a) (b : Nat) :
    (Memory.cons a v m).read b = if b = a then v else m.read b := by
  by_cases hv : v = Memory.unlisted
  · rw [Memory.cons, if_pos hv]
    split
    · next hb => rw [hv, read_of_above habove hb.le]
    · rfl
  · rw [Memory.cons, if_neg hv, Memory.read]
    simp only [eq_comm]

theorem read_write {m : Memory} (hwf : m.wf = true) (a : Nat) (v : Byte) (b : Nat) :
    (m.write a v).read b = if b = a then v else m.read b := by
  induction m with
  | nil => exact read_cons v (List.forall_mem_nil _) b
  | cons c rest ih =>
    obtain ⟨habove, -, -, hrest⟩ := (Memory.wf_cons_iff c rest).mp hwf
    rw [Memory.write]
    split
    · next hlt => exact read_cons v (above_of_lt_head hlt habove) b
    · split
      · next heq =>
        subst heq
        rw [read_cons v habove, Memory.read]
        by_cases hb : b = c.1
        · rw [if_pos hb, if_pos hb]
        · rw [if_neg hb, if_neg hb, if_neg (Ne.symm hb)]
      · next hne =>
        rw [Memory.read, Memory.read, ih hrest]
        by_cases hb : c.1 = b
        · rw [if_pos hb, if_pos hb, if_neg fun hba => hne (hba.symm.trans hb.symm)]
        · rw [if_neg hb, if_neg hb]

/-- Settles O47, by `read_write`. -/
theorem readAfterWrite : Obligations.ReadAfterWrite :=
  fun _ a b v hwf => read_write hwf a v b

theorem read_head (c : Host.Cell) (rest : Memory) : Memory.read (c :: rest) c.1 = c.2 :=
  if_pos rfl

/-- A memory that reads like `c :: rest` lists an address as low as `c`'s, since a listed byte is no unlisted one. -/
theorem not_above_of_read_eq {c : Host.Cell} {rest m : Memory} (hwf : Memory.wf (c :: rest) = true)
    (hread : ∀ a, Memory.read (c :: rest) a = m.read a) : ¬ m.above c.1 := by
  obtain ⟨-, -, hlisted, -⟩ := (Memory.wf_cons_iff c rest).mp hwf
  intro habove
  exact hlisted ((read_head c rest).symm.trans ((hread c.1).trans (read_of_above habove le_rfl)))

theorem eq_of_read_eq {m m' : Memory} (hwf : m.wf = true) (hwf' : m'.wf = true)
    (hread : ∀ a, m.read a = m'.read a) : m = m' := by
  induction m generalizing m' with
  | nil =>
    cases m' with
    | nil => rfl
    | cons c' rest' => exact absurd (List.forall_mem_nil _) (not_above_of_read_eq hwf' fun a => (hread a).symm)
  | cons c rest ih =>
    cases m' with
    | nil => exact absurd (List.forall_mem_nil _) (not_above_of_read_eq hwf hread)
    | cons c' rest' =>
      obtain ⟨habove, -, -, hrest⟩ := (Memory.wf_cons_iff c rest).mp hwf
      obtain ⟨habove', -, -, hrest'⟩ := (Memory.wf_cons_iff c' rest').mp hwf'
      have haddr : c.1 = c'.1 := by
        refine Nat.le_antisymm (Nat.le_of_not_lt fun hlt => ?_) (Nat.le_of_not_lt fun hlt => ?_)
        · exact not_above_of_read_eq hwf' (fun a => (hread a).symm) (above_of_lt_head hlt habove)
        · exact not_above_of_read_eq hwf hread (above_of_lt_head hlt habove')
      have hvalue : c.2 = c'.2 := by
        rw [← read_head c rest, hread, haddr, read_head]
      have htail : ∀ a, Memory.read rest a = Memory.read rest' a := by
        intro a
        by_cases ha : a = c.1
        · rw [read_of_above habove ha.le, read_of_above habove' (ha.trans haddr).le]
        · have hcell := hread a
          rwa [Memory.read, Memory.read, if_neg (Ne.symm ha), if_neg (haddr ▸ Ne.symm ha)] at hcell
      rw [ih hrest hrest' htail, Prod.ext haddr hvalue]

/-- Settles O48: the first cells agree by `not_above_of_read_eq` from both sides, the others by induction. -/
theorem memoryIsDeterminedByItsBytes : Obligations.MemoryIsDeterminedByItsBytes :=
  fun _ _ hwf hwf' hread => eq_of_read_eq hwf hwf' hread

end Sys2Proof.Proofs
end

section
/-! Words and images in memory (R46, R48, R57): the reads after a word store and after the loader's port. -/

namespace Sys2Proof.Proofs

open Sys2Proof.Machine

theorem writeByte_of_inside (m : Memory) {a : Nat} (v : Byte) (h : a < Config.memSize) :
    writeByte m a v = .ok (m.write a v) :=
  if_pos ((inMemory_iff a).mpr h)

theorem readByte_of_inside (m : Memory) {a : Nat} (h : a < Config.memSize) : readByte m a = .ok (m.read a) :=
  if_pos ((inMemory_iff a).mpr h)

theorem writeWord_of_inside (m : Memory) {a : Nat} (v : Word) (h : a + 1 < Config.memSize) :
    writeWord m a v = .ok ((m.write a (lowByte v)).write (a + 1) (highByte v)) := by
  obtain ⟨-, heq⟩ | ⟨-, hout, -⟩ | ⟨hout, -⟩ := writeWord_cases m a v
  · exact heq
  · omega
  · omega

theorem writeWord_of_second_outside (m : Memory) {a : Nat} (v : Word) (hfirst : a < Config.memSize)
    (hsecond : Config.memSize ≤ a + 1) : writeWord m a v = .error (a + 1) := by
  obtain ⟨hin, -⟩ | ⟨-, -, heq⟩ | ⟨hout, -⟩ := writeWord_cases m a v
  · omega
  · exact heq
  · omega

/-- The reads after stores of a low and a high byte. -/
theorem read_write_pair {m : Memory} (hwf : m.wf = true) {a : Nat} (ha : a < Config.memSize) (lo hi : Byte) (b : Nat) :
    ((m.write a lo).write (a + 1) hi).read b = if b = a then lo else if b = a + 1 then hi else m.read b := by
  rw [read_write (Memory.write_wf lo ha hwf), read_write hwf]
  by_cases hb : b = a
  · rw [if_neg (by omega), if_pos hb, if_pos hb]
  · rw [if_neg hb, if_neg hb]

theorem reads_of_write_pair {m : Memory} (hwf : m.wf = true) {a : Nat} (ha : a + 1 < Config.memSize) (lo hi : Byte) :
    readByte ((m.write a lo).write (a + 1) hi) a = .ok lo ∧
      readByte ((m.write a lo).write (a + 1) hi) (a + 1) = .ok hi ∧
      readWord ((m.write a lo).write (a + 1) hi) a = .ok (joinBytes lo hi) := by
  have hin : a < Config.memSize := by omega
  have hlo : ((m.write a lo).write (a + 1) hi).read a = lo := by
    rw [read_write_pair hwf hin, if_pos rfl]
  have hhi : ((m.write a lo).write (a + 1) hi).read (a + 1) = hi := by
    rw [read_write_pair hwf hin, if_neg (by omega), if_pos rfl]
  refine ⟨?_, ?_, ?_⟩
  · rw [readByte_of_inside _ hin, hlo]
  · rw [readByte_of_inside _ ha, hhi]
  · rw [readWord_of_inside _ ha, hlo, hhi]

/-- Settles O50: a word store is the two byte stores of its halves, whose reads are `reads_of_write_pair`. -/
theorem wordIsItsTwoBytes : Obligations.WordIsItsTwoBytes := by
  intro m a v lo hi hwf ha
  have hin : a < Config.memSize := Nat.lt_of_succ_lt ha
  constructor
  · obtain ⟨hlow, hhigh, hword⟩ := reads_of_write_pair hwf ha (lowByte v) (highByte v)
    refine ⟨_, writeWord_of_inside m v ha, ?_, ?_, ?_⟩
    · rw [hlow, lowByte_eq_ofNat]
    · rw [hhigh, highByte_eq_ofNat]
    · rw [hword, joinBytes_low_high]
  · obtain ⟨-, -, hword⟩ := reads_of_write_pair hwf ha lo hi
    refine ⟨_, _, writeByte_of_inside m lo hin, writeByte_of_inside _ hi ha, ?_⟩
    rw [hword, joinBytes_eq_ofNat]

/-- The reads after the loader's port has written a byte sequence that fits. -/
theorem read_storeBytes {m : Memory} (hwf : m.wf = true) {a : Nat} {bs : List Byte}
    (hfit : a + bs.length ≤ Config.memSize) (b : Nat) :
    (storeBytes m a bs).read b = if a ≤ b ∧ b < a + bs.length then bs.getD (b - a) 0 else m.read b := by
  induction bs generalizing m a with
  | nil => rw [storeBytes, if_neg (by rw [List.length_nil]; omega)]
  | cons v rest ih =>
    rw [List.length_cons] at hfit ⊢
    have hin : a < Config.memSize := by omega
    rw [storeBytes, if_pos ((inMemory_iff a).mpr hin), ih (Memory.write_wf v hin hwf) (by omega), read_write hwf]
    by_cases hb : b = a
    · rw [if_neg (by omega), if_pos hb, if_pos (by omega), hb, Nat.sub_self, List.getD_cons_zero]
    · by_cases hlater : a + 1 ≤ b ∧ b < a + 1 + rest.length
      · rw [if_pos hlater, if_pos (by omega), show b - a = b - (a + 1) + 1 by omega, List.getD_cons_succ]
      · rw [if_neg hlater, if_neg hb, if_neg (by omega)]

theorem create_eq_createWith (image : List Byte) :
    create image = createWith State.reset.small State.reset.wide State.reset.mem image := rfl

theorem createWith_of_fits (small : Vector Byte 16) (wide : Vector Word 16) (mem : Memory) {image : List Byte}
    (hfit : image.length ≤ Config.memSize) :
    createWith small wide mem image =
      .ok { State.reset with small := small, wide := wide, mem := storeBytes mem 0 image } :=
  if_neg (Nat.not_lt.mpr hfit)

/-- A Running state has the invariant when its pc and its memory do. -/
theorem inv_of_running {s : State} (hrun : s.status = .running) (hpc : s.pc ≤ Config.memSize) (hwf : s.mem.wf = true) :
    s.inv = true := by
  simp only [State.inv, State.statusLegal, hrun, hwf, decide_eq_true hpc, Bool.and_self]

theorem createWith_loads (small : Vector Byte 16) (wide : Vector Word 16) {mem : Memory} {image : List Byte}
    (hfit : image.length ≤ Config.memSize) (hwf : mem.wf = true) :
    ∃ s, createWith small wide mem image = .ok s ∧ s.inv = true ∧
      (∀ a : Nat, s.mem.read a = if a < image.length then image.getD a 0 else mem.read a) ∧
      s = { small := small, wide := wide, pc := 0, mem := s.mem, out := [], status := .running } := by
  refine ⟨_, createWith_of_fits small wide mem hfit, ?_, fun a => ?_, rfl⟩
  · exact inv_of_running rfl (Nat.zero_le _) (storeBytes_wf 0 image hwf)
  · have hread := read_storeBytes hwf (a := 0) (bs := image) (by omega) a
    simpa only [Nat.zero_le, true_and, Nat.zero_add, Nat.sub_zero] using hread

/-- Settles O20: the port's reads at address 0 are `createWith_loads`; over the reset state's memory every other byte
is 0, which is also what `getD` gives past the image. -/
theorem createLoadsTheImageAtZero : Obligations.CreateLoadsTheImageAtZero := by
  refine fun image => ⟨fun hlong => if_pos hlong, fun hfit => ?_, fun small wide mem hfit hwf =>
    createWith_loads small wide hfit hwf⟩
  obtain ⟨s, hcreate, hinv, hread, hstate⟩ :=
    createWith_loads State.reset.small State.reset.wide hfit reset_mem_wf
  refine ⟨s, hcreate, hinv, fun a => ?_, hstate⟩
  rw [hread]
  split
  · rfl
  · next hout => exact (List.getD_eq_default _ _ (Nat.le_of_not_lt hout)).symm

end Sys2Proof.Proofs
end

section
/-! Which steps there are (R90, R91, R94, R227), and the steps over bytes that lie at pc: the encoding of an instruction,
a stored table word (log 17), and the bytes of an arithmetic instruction under any selector map (R68). -/

namespace Sys2Proof.Proofs

open Sys2Proof.Machine Sys2Proof.Certificates

/-- Settles O5, by `step_decoded`. -/
theorem stepRunsTheDecodedInstruction : Obligations.StepRunsTheDecodedInstruction :=
  fun _ _ hrun hdec _ => step_decoded hrun hdec

/-- A Running core's step answers a state: a decode fault's, or the one that `exec` always answers. -/
theorem exists_step_of_running {s : State} (hrun : s.status = .running) : ∃ t, step s = .next t := by
  cases hdec : decode (fetchWindow s.mem s.pc) with
  | error e => exact ⟨_, step_decodeError hrun hdec⟩
  | ok i =>
    obtain ⟨t, hexec, -⟩ := exec_banks i s
    exact ⟨t, (step_decoded hrun hdec).trans hexec⟩

/-- Settles O8: a next state comes of a Running core by `step_next_cases`. -/
theorem exactlyTheRunningCoreHasAStep : Obligations.ExactlyTheRunningCoreHasAStep := by
  refine fun s => ⟨fun ⟨t, hstep⟩ => ?_, exists_step_of_running⟩
  obtain ⟨hrun, -⟩ := step_next_cases hstep
  exact hrun

theorem hostStep_of_faulted {s : State} {r : FaultRecord} (h : s.status = .faulted r) : hostStep s = s := by
  rw [hostStep, step_faulted h]

theorem hostStops_of_faulted {s : State} {r : FaultRecord} (h : s.status = .faulted r) (policy : Config.Termination)
    (done : Nat) (stop : Bool) : hostStops policy done stop s = true := by
  simp only [hostStops, State.isFaulted, h, Bool.true_or]

theorem hostRun_of_faulted {s : State} {r : FaultRecord} (h : s.status = .faulted r) (policy : Config.Termination)
    (done : Nat) (signals : List Bool) : hostRun policy done signals s = s := by
  cases signals with
  | nil => rfl
  | cons stop rest => rw [hostRun, if_pos (hostStops_of_faulted h policy done stop)]

/-- Settles O9: the host stops before each step of a Faulted core (R99). -/
theorem faultedCoreIsStoppedForGood : Obligations.FaultedCoreIsStoppedForGood :=
  fun _ _ h => ⟨step_faulted h, hostStep_of_faulted h, hostRun_of_faulted h⟩

theorem length_encodeShape_le (sh : Shape) : (encodeShape sh).length ≤ maxInstrLength := by
  cases sh <;> simp [encodeShape, maxInstrLength]

/-- The step over the encoding of an instruction that lies at pc (R73, R91). -/
theorem step_of_encode {s : State} {i : Instr} (hrun : s.status = .running) (hwf : i.wellFormed = true)
    (hbytes : bytesAt s.mem s.pc (encode i)) : step s = exec i s :=
  step_of_bytesAt hrun hbytes (length_encodeShape_le i.toShape) (decode_encode hwf)

/-- Settles O6, by the round trip at the bytes of the window. -/
theorem stepRunsTheBytesAtPc : Obligations.StepRunsTheBytesAtPc :=
  fun _ _ hrun hwf hbytes => step_of_encode hrun hwf hbytes

theorem length_readBytes (m : Memory) (a n : Nat) : (readBytes m a n).length = min n (Config.memSize - a) := by
  induction n generalizing a with
  | zero => rw [readBytes, List.length_nil, Nat.zero_min]
  | succ n ih =>
    rw [readBytes]
    split
    · next hin =>
      have hlt := (inMemory_iff a).mp hin
      rw [List.length_cons, ih]
      omega
    · next hout =>
      have hle := Nat.le_of_not_lt (mt (inMemory_iff a).mpr hout)
      rw [List.length_nil]
      omega

/-- Bytes that lie in memory are what is read when their number is asked for. -/
theorem readBytes_eq_of_bytesAt {m : Memory} {a : Nat} {bs : List Byte} (hbytes : bytesAt m a bs) :
    readBytes m a bs.length = bs := by
  obtain ⟨rest, hread⟩ := readBytes_of_bytesAt hbytes le_rfl
  have hlength : (bs ++ rest).length ≤ bs.length := by
    rw [← hread, length_readBytes]
    exact Nat.min_le_left _ _
  have hrest : rest = [] := by
    rw [List.length_append] at hlength
    exact List.length_eq_zero_iff.mp (by omega)
  rw [hread, hrest, List.append_nil]

theorem bytesAt_storeBytes {m : Memory} (hwf : m.wf = true) {a : Nat} {bs : List Byte}
    (hfit : a + bs.length ≤ Config.memSize) : bytesAt (storeBytes m a bs) a bs := by
  refine ⟨hfit, fun k hk => ?_⟩
  rw [read_storeBytes hwf hfit, if_pos (by omega), Nat.add_sub_cancel_left]

theorem decode_of_decodeTableWord {nbits w : Nat} {i : Instr} (h : decodeTableWord nbits w = some i) :
    decode (tableBytes nbits w) = .ok i := by
  unfold decodeTableWord at h
  cases hdec : decode (tableBytes nbits w) with
  | error e => rw [hdec] at h; cases h
  | ok j => rw [hdec] at h; cases h; rfl

/-- Settles O7: the window at pc is the four bytes that the loader's port wrote there. -/
theorem storedTableWordRunsNext : Obligations.StoredTableWordRunsNext := by
  intro s nbits w i hrun hwf hfit hword
  have hwindow : fetchWindow (storeBytes s.mem s.pc (tableBytes nbits w)) s.pc = tableBytes nbits w :=
    readBytes_eq_of_bytesAt (bytesAt_storeBytes hwf hfit)
  refine step_decoded (s := s.withFetchWord nbits w) hrun ?_
  exact (congrArg decode hwindow).trans (decode_of_decodeTableWord hword)

/-- The step of the machine of any selector map over the encoding of a shape that lies at pc. -/
theorem stepWith_of_encodeShape (m : Config.SelectorMap) {s : State} {sh : Shape} (hrun : s.status = .running)
    (hwf : sh.wellFormed = true) (hbytes : bytesAt s.mem s.pc (encodeShape sh)) :
    stepWith m s = execShape m sh s := by
  obtain ⟨rest, hread⟩ := readBytes_of_bytesAt hbytes (length_encodeShape_le sh)
  have hdec : decodeShape (fetchWindow s.mem s.pc) = .ok sh := by
    rw [fetchWindow, hread, decodeShape_encodeShape hwf]
  simp only [stepWith, hrun, hdec]

theorem withOperation_of_lookup {m : Config.SelectorMap} {sel : Selector} {op : AluOp} (h : m.lookup sel = some op)
    (s : State) (run : AluOp → State → Result) : withOperation m sel s run = run op s := by
  rw [withOperation, h]

/-- A selector that some map assigns is one of 0 to 29 (R68). -/
theorem assigned_of_lookup {m : Config.SelectorMap} {sel : Selector} {op : AluOp} (h : m.lookup sel = some op) :
    (!unassignedSelector sel) = true := by
  obtain ⟨hlt, -⟩ := List.getElem?_eq_some_iff.mp h
  rw [m.length_ops] at hlt
  rw [unassignedSelector, Bool.not_eq_true', decide_eq_false_iff_not]
  exact Nat.not_le.mpr hlt

theorem pairByte_eq_ofNat (a b : RegIdx) : pairByte a b = BitVec.ofNat 8 (16 * a.val + b.val) := by
  revert a b; decide

/-- Settles O11: in each class the bytes are the encoding of the shape, which runs the operation that is looked up. -/
theorem everySelectorMapRunsItsOperation : Obligations.EverySelectorMapRunsItsOperation := by
  intro m sel op a b s hop hrun
  have hassigned := assigned_of_lookup hop
  have hsmall : BitVec.ofNat 8 (0x80 + sel.toNat) = arithOpcode .binOpSmall sel :=
    (arithOpcode_eq_ofNat .binOpSmall sel).symm
  have hwide : BitVec.ofNat 8 (0xA0 + sel.toNat) = arithOpcode .binOpWide sel :=
    (arithOpcode_eq_ofNat .binOpWide sel).symm
  have himmSmall : BitVec.ofNat 8 (0xC0 + sel.toNat) = arithOpcode .binOpImmSmall sel :=
    (arithOpcode_eq_ofNat .binOpImmSmall sel).symm
  have himmWide : BitVec.ofNat 8 (0xE0 + sel.toNat) = arithOpcode .binOpImmWide sel :=
    (arithOpcode_eq_ofNat .binOpImmWide sel).symm
  simp only [hsmall, hwide, himmSmall, himmWide, ← pairByte_eq_ofNat, ← joinBytes_eq_ofNat]
  refine ⟨fun hbytes => ?_, fun hbytes => ?_, fun v hbytes => ?_, fun lo hi hbytes => ?_⟩
  · exact (stepWith_of_encodeShape m (sh := .binOpSmall sel a b) hrun hassigned hbytes).trans
      (withOperation_of_lookup hop s _)
  · exact (stepWith_of_encodeShape m (sh := .binOpWide sel a b) hrun hassigned hbytes).trans
      (withOperation_of_lookup hop s _)
  · exact (stepWith_of_encodeShape m (sh := .binOpImmSmall sel a b v) hrun hassigned hbytes).trans
      (withOperation_of_lookup hop s _)
  · have hencode : bytesAt s.mem s.pc (encodeShape (.binOpImmWide sel a b (joinBytes lo hi))) := by
      rw [encodeShape, lowByte_joinBytes, highByte_joinBytes]
      exact hbytes
    exact (stepWith_of_encodeShape m (sh := .binOpImmWide sel a b (joinBytes lo hi)) hrun hassigned hencode).trans
      (withOperation_of_lookup hop s _)

end Sys2Proof.Proofs
end

section
/-! The small output (R110), the byte accesses (R120, R122) and the wide store (R123): the whole next state of each. A
byte at a 16-bit address is always in memory; a word's second byte is not at 0xFFFF. -/

namespace Sys2Proof.Proofs

open Sys2Proof.Machine Sys2Proof.Certificates

theorem effectiveAddress_lt (addr : Addr) : effectiveAddress addr < Config.memSize := addr.isLt

theorem exec_output (r : RegIdx) (s : State) :
    exec (.output r) s = .next { s with out := s.out ++ [.byte s.small[r]], pc := s.pc + 1 } := rfl

/-- Settles O24: the one byte at pc is the encoding of `output r`, whose next state is `exec_output`. -/
theorem outputEmitsTheSmallRegister : Obligations.OutputEmitsTheSmallRegister := by
  refine fun r s => ⟨exec_output r s, fun hrun hbytes => ?_⟩
  have hop : BitVec.ofNat 8 (0x00 + r.val) = simpleOpcode 0b0000 r := (simpleOpcode_eq_ofNat 0b0000 r).symm
  rw [hop] at hbytes
  exact (step_of_encode (i := .output r) hrun rfl hbytes).trans (exec_output r s)

theorem exec_loadmem (r : RegIdx) (addr : Addr) (s : State) :
    exec (.loadmem r addr) s = .next { s with small := s.small.set r (s.mem.read addr.toNat), pc := s.pc + 3 } := by
  have haccess : exec (.loadmem r addr) s =
      s.access (readByte s.mem (effectiveAddress addr)) fun v => (s.writeSmall r v).advance 3 := rfl
  rw [haccess, readByte_of_inside s.mem (effectiveAddress_lt addr)]
  rfl

/-- Settles O26: the three bytes at pc are the encoding of `loadmem r addr`, whose next state is `exec_loadmem`. -/
theorem loadmemReadsOneByte : Obligations.LoadmemReadsOneByte := by
  refine fun r addr s => ⟨exec_loadmem r addr s, fun hrun hbytes => ?_⟩
  have hop : BitVec.ofNat 8 (0x20 + r.val) = simpleOpcode 0b0010 r := (simpleOpcode_eq_ofNat 0b0010 r).symm
  rw [hop, ← lowByte_eq_ofNat, ← highByte_eq_ofNat] at hbytes
  exact (step_of_encode (i := .loadmem r addr) hrun rfl hbytes).trans (exec_loadmem r addr s)

theorem exec_storemem (r : RegIdx) (addr : Addr) (s : State) :
    exec (.storemem r addr) s =
      .next { s with mem := s.mem.write (effectiveAddress addr) (s.readSmall r), pc := s.pc + 3 } := by
  have haccess : exec (.storemem r addr) s =
      s.access (writeByte s.mem (effectiveAddress addr) (s.readSmall r)) fun m => (s.withMem m).advance 3 := rfl
  rw [haccess, writeByte_of_inside s.mem _ (effectiveAddress_lt addr)]
  rfl

/-- Settles O28: the next state of `exec_storemem`, whose reads are those of `read_write`. -/
theorem storememWritesOneByte : Obligations.StorememWritesOneByte :=
  fun r addr s hwf => ⟨_, exec_storemem r addr s, fun a => read_write hwf _ _ a, rfl⟩

/-- The two branches of the access: the word's second byte lies beyond memory exactly at 0xFFFF. -/
theorem exec_storememw (r : RegIdx) (addr : Addr) (s : State) :
    exec (.storememw r addr) s =
      if addr.toNat = 0xFFFF then .next (faultedWith s .addressOutOfRange (some 0x10000))
      else .next { s with
        mem := (s.mem.write (effectiveAddress addr) (lowByte (s.readWide r))).write (effectiveAddress addr + 1)
          (highByte (s.readWide r)),
        pc := s.pc + 3 } := by
  have haccess : exec (.storememw r addr) s =
      s.access (writeWord s.mem addr.toNat (s.readWide r)) fun m => (s.withMem m).advance 3 := rfl
  have hsize : Config.memSize = 65536 := rfl
  have hlt := addr.isLt
  rw [haccess]
  split
  · next hlast =>
    rw [writeWord_of_second_outside s.mem _ (by omega) (by omega), hlast]
    rfl
  · next hinside =>
    rw [writeWord_of_inside s.mem _ (by omega)]
    rfl

/-- Settles O29: the two branches of `exec_storememw`; the bytes of the completed store are `read_write_pair`. -/
theorem storememwWritesTwoBytesLowFirst : Obligations.StorememwWritesTwoBytesLowFirst := by
  refine fun r addr s hwf => ⟨fun hinside => ?_, fun hlast => ?_⟩
  · refine ⟨_, (exec_storememw r addr s).trans (if_neg hinside.ne), fun a => ?_, rfl⟩
    rw [read_write_pair hwf (effectiveAddress_lt addr), ← lowByte_toNat, ← highByte_toNat]
    split
    · rfl
    · split <;> rfl
  · exact (exec_storememw r addr s).trans (if_pos hlast)

end Sys2Proof.Proofs
end

section
/-! What running a shape does besides its registers, said once: the fault it takes (R204, R222), or else the pc it
leaves (R93) and the bytes it stores (R122, R123). What an instruction does is this at the reference map. -/

namespace Sys2Proof.Proofs

open Sys2Proof.Machine Sys2Proof.Certificates

/-- The fault of an arithmetic shape: InvalidOperation, when the map gives its selector no operation (R204). -/
def selectorFault (m : Config.SelectorMap) (sel : Selector) : Option (FaultKind × Option Nat) :=
  match m.lookup sel with
  | some _ => none
  | none => some (.invalidOperation, none)

/-- The fault of a word access: AddressOutOfRange at 0xFFFF, where its second byte is beyond memory (R222). -/
def wordFault (addr : Addr) : Option (FaultKind × Option Nat) :=
  if addr.toNat = 0xFFFF then some (.addressOutOfRange, some 0x10000) else none

/-- The fault a shape takes, if it takes one. -/
def shapeFault (m : Config.SelectorMap) : Shape → Option (FaultKind × Option Nat)
  | .loadMemWide _ addr => wordFault addr
  | .storeMemWide _ addr => wordFault addr
  | .binOpSmall sel _ _ => selectorFault m sel
  | .binOpWide sel _ _ => selectorFault m sel
  | .binOpImmSmall sel _ _ _ => selectorFault m sel
  | .binOpImmWide sel _ _ _ => selectorFault m sel
  | .invalidSelector _ _ => some (.invalidOperation, none)
  | _ => none

/-- The pc a shape leaves when it takes no fault. -/
def shapePc (sh : Shape) (s : State) : Nat :=
  match sh with
  | .jump addr => addr.toNat
  | .jumpIfOdd r addr => if s.small[r].toNat % 2 = 1 then addr.toNat else s.pc + 3
  | _ => s.pc + (encodeShape sh).length

/-- The bytes a shape stores when it takes no fault, each with its address, in order. -/
def shapeStores (sh : Shape) (s : State) : List Host.Cell :=
  match sh with
  | .storeMem r addr => [(effectiveAddress addr, s.readSmall r)]
  | .storeMemWide r addr =>
    [(effectiveAddress addr, lowByte (s.readWide r)), (effectiveAddress addr + 1, highByte (s.readWide r))]
  | _ => []

/-- Memory after a list of stores. -/
def storeCells (m : Memory) (cells : List Host.Cell) : Memory :=
  cells.foldl (fun m c => m.write c.1 c.2) m

/-- `t` is `s` after a shape that took no fault, as far as status, pc and memory go. -/
structure Completes (sh : Shape) (s t : State) : Prop where
  status : t.status = s.status
  pc : t.pc = shapePc sh s
  mem : t.mem = storeCells s.mem (shapeStores sh s)

theorem withOperation_outcome (m : Config.SelectorMap) (sel : Selector) {s : State} {run : AluOp → State → Result}
    {sh : Shape} (hrun : ∀ op, ∃ t, run op s = .next t ∧ Completes sh s t) :
    (∃ kind addr, selectorFault m sel = some (kind, addr) ∧
        withOperation m sel s run = .next (s.raiseFault kind addr)) ∨
      (selectorFault m sel = none ∧ ∃ t, withOperation m sel s run = .next t ∧ Completes sh s t) := by
  unfold selectorFault withOperation
  cases m.lookup sel with
  | none => exact .inl ⟨_, _, rfl, takeInvalidOperation_eq s⟩
  | some op => exact .inr ⟨rfl, hrun op⟩

/-- Every shape answers a next state: that of its fault, or else one that `Completes` describes. -/
theorem execShape_outcome (m : Config.SelectorMap) (sh : Shape) (s : State) :
    (∃ kind addr, shapeFault m sh = some (kind, addr) ∧ execShape m sh s = .next (s.raiseFault kind addr)) ∨
      (shapeFault m sh = none ∧ ∃ t, execShape m sh s = .next t ∧ Completes sh s t) := by
  cases sh with
  | output r => exact .inr ⟨rfl, _, exec_output r s, rfl, rfl, rfl⟩
  | outputWide r => exact .inr ⟨rfl, _, exec_outputw r s, rfl, rfl, rfl⟩
  | loadMem r addr => exact .inr ⟨rfl, _, exec_loadmem r addr s, rfl, rfl, rfl⟩
  | storeMem r addr => exact .inr ⟨rfl, _, exec_storemem r addr s, rfl, rfl, rfl⟩
  | jump addr => exact .inr ⟨rfl, _, exec_jmp addr s, rfl, rfl, rfl⟩
  | jumpIfOdd r addr => exact .inr ⟨rfl, _, exec_jmpodd r addr s, rfl, rfl, rfl⟩
  | loadMemWide r addr =>
    by_cases hlast : addr.toNat = 0xFFFF
    · exact .inl ⟨_, _, if_pos hlast, (exec_loadmemw r addr s).trans (if_pos hlast)⟩
    · exact .inr ⟨if_neg hlast, _, (exec_loadmemw r addr s).trans (if_neg hlast), rfl, rfl, rfl⟩
  | storeMemWide r addr =>
    by_cases hlast : addr.toNat = 0xFFFF
    · exact .inl ⟨_, _, if_pos hlast, (exec_storememw r addr s).trans (if_pos hlast)⟩
    · exact .inr ⟨if_neg hlast, _, (exec_storememw r addr s).trans (if_neg hlast), rfl, rfl, rfl⟩
  | binOpSmall sel | binOpWide sel | binOpImmSmall sel | binOpImmWide sel =>
    exact withOperation_outcome m sel fun op => ⟨_, rfl, rfl, rfl, rfl⟩
  | invalidSelector => exact .inl ⟨_, _, rfl, takeInvalidOperation_eq s⟩

theorem exec_next_cases {i : Instr} {s t : State} (h : exec i s = .next t) :
    (∃ kind addr, shapeFault referenceMap i.toShape = some (kind, addr) ∧ t = s.raiseFault kind addr) ∨
      (shapeFault referenceMap i.toShape = none ∧ Completes i.toShape s t) := by
  rw [exec_eq_execShape] at h
  obtain ⟨kind, addr, hfault, hnext⟩ | ⟨hfault, t', hnext, hcompletes⟩ :=
    execShape_outcome referenceMap i.toShape s
  · cases hnext.symm.trans h
    exact .inl ⟨kind, addr, hfault, rfl⟩
  · cases hnext.symm.trans h
    exact .inr ⟨hfault, hcompletes⟩

theorem wordFault_eq_some {addr : Addr} {kind : FaultKind} {fault : Option Nat}
    (h : wordFault addr = some (kind, fault)) :
    kind = .addressOutOfRange ∧ fault = some 0x10000 ∧ addr = 0xFFFF := by
  obtain ⟨hlast, heq⟩ := (Option.ite_none_right_eq_some ..).mp h
  cases heq
  exact ⟨rfl, rfl, BitVec.eq_of_toNat_eq hlast⟩

theorem selectorFault_eq_some {m : Config.SelectorMap} {sel : Selector} {kind : FaultKind} {addr : Option Nat}
    (h : selectorFault m sel = some (kind, addr)) : kind = .invalidOperation ∧ addr = none := by
  unfold selectorFault at h
  split at h
  · cases h
  · cases h
    exact ⟨rfl, rfl⟩

/-- The faults of a shape: InvalidOperation, or AddressOutOfRange of a word access at 0xFFFF (R221, R222). -/
theorem shapeFault_eq_some {m : Config.SelectorMap} {sh : Shape} {kind : FaultKind} {addr : Option Nat}
    (h : shapeFault m sh = some (kind, addr)) :
    (kind = .invalidOperation ∧ addr = none) ∨
      (kind = .addressOutOfRange ∧ addr = some 0x10000 ∧
        ∃ r, sh = .loadMemWide r 0xFFFF ∨ sh = .storeMemWide r 0xFFFF) := by
  cases sh with
  | loadMemWide r =>
    obtain ⟨hkind, haddr, rfl⟩ := wordFault_eq_some h
    exact .inr ⟨hkind, haddr, r, .inl rfl⟩
  | storeMemWide r =>
    obtain ⟨hkind, haddr, rfl⟩ := wordFault_eq_some h
    exact .inr ⟨hkind, haddr, r, .inr rfl⟩
  | binOpSmall | binOpWide | binOpImmSmall | binOpImmWide => exact .inl (selectorFault_eq_some h)
  | invalidSelector => cases h; exact .inl ⟨rfl, rfl⟩
  | _ => cases h

/-- A shape that takes no fault stores within memory. -/
theorem shapeStores_inside {m : Config.SelectorMap} {sh : Shape} (h : shapeFault m sh = none) (s : State) :
    ∀ c ∈ shapeStores sh s, c.1 < Config.memSize := by
  cases sh with
  | storeMem r addr => exact List.forall_mem_singleton.mpr (effectiveAddress_lt addr)
  | storeMemWide r addr =>
    have hinside : addr.toNat ≠ 0xFFFF := fun hlast => by
      cases (if_pos hlast).symm.trans h
    have hnext : effectiveAddress addr + 1 < Config.memSize :=
      Nat.lt_of_le_of_ne (effectiveAddress_lt addr) fun hend => hinside (Nat.succ_injective hend)
    exact List.forall_mem_cons.mpr ⟨effectiveAddress_lt addr, List.forall_mem_singleton.mpr hnext⟩
  | _ => exact List.forall_mem_nil _

theorem storeCells_wf {m : Memory} {cells : List Host.Cell} (hwf : m.wf = true)
    (hinside : ∀ c ∈ cells, c.1 < Config.memSize) : (storeCells m cells).wf = true := by
  induction cells generalizing m with
  | nil => exact hwf
  | cons c rest ih =>
    obtain ⟨hc, hrest⟩ := List.forall_mem_cons.mp hinside
    exact ih (Memory.write_wf c.2 hc hwf) hrest

theorem read_storeCells_of_not_mem {m : Memory} {cells : List Host.Cell} (hwf : m.wf = true)
    (hinside : ∀ c ∈ cells, c.1 < Config.memSize) {a : Nat} (ha : a ∉ cells.map Prod.fst) :
    (storeCells m cells).read a = m.read a := by
  induction cells generalizing m with
  | nil => rfl
  | cons c rest ih =>
    obtain ⟨hc, hrest⟩ := List.forall_mem_cons.mp hinside
    obtain ⟨hne, hlater⟩ := not_or.mp (mt List.mem_cons.mpr ha)
    exact (ih (Memory.write_wf c.2 hc hwf) hrest hlater).trans ((read_write hwf c.1 c.2 a).trans (if_neg hne))

/-- The pc a shape leaves is that of the sequence, or the target of a jump that is taken (R93, R142). -/
theorem shapePc_cases (sh : Shape) (s : State) :
    shapePc sh s = s.pc + (encodeShape sh).length ∨
      ∃ addr, shapePc sh s = addr.toNat ∧
        (sh = .jump addr ∨ ∃ r, sh = .jumpIfOdd r addr ∧ (s.readSmall r).toNat % 2 = 1) := by
  cases sh with
  | jump addr => exact .inr ⟨addr, rfl, .inl rfl⟩
  | jumpIfOdd r addr =>
    by_cases hodd : s.small[r].toNat % 2 = 1
    · exact .inr ⟨addr, if_pos hodd, .inr ⟨r, rfl, hodd⟩⟩
    · exact .inl (if_neg hodd)
  | _ => exact .inl rfl

theorem eq_ofShape_of_toShape {i : Instr} {sh : Shape} (h : i.toShape = sh) : i = .ofShape sh :=
  h ▸ (ofShape_toShape i).symm

/-- Settles O32: an instruction that takes no fault leaves the pc of `shapePc_cases`. -/
theorem onlyJumpsLeaveTheSequence : Obligations.OnlyJumpsLeaveTheSequence := by
  intro i s t _ hexec hrun'
  obtain ⟨kind, addr, -, rfl⟩ | ⟨-, hcompletes⟩ := exec_next_cases hexec
  · cases hrun'
  · rw [hcompletes.pc]
    obtain hseq | ⟨addr, htarget, hjump | ⟨r, hjump, hodd⟩⟩ := shapePc_cases i.toShape s
    · exact .inl hseq
    · exact .inr ⟨addr, htarget, .inl (eq_ofShape_of_toShape hjump)⟩
    · exact .inr ⟨addr, htarget, .inr ⟨r, eq_ofShape_of_toShape hjump, hodd⟩⟩

/-- Settles O33: a fault keeps pc and a jump's target is an address, so the decoded instruction advanced to the end. -/
theorem pastEndOnlyBySequentialAdvance : Obligations.PastEndOnlyBySequentialAdvance := by
  intro s t hpc hstep hend
  obtain ⟨-, ⟨i, hdec, hexec⟩ | ⟨e, -, rfl⟩⟩ := step_next_cases hstep
  · obtain ⟨kind, addr, -, rfl⟩ | ⟨-, hcompletes⟩ := exec_next_cases hexec
    · exact absurd hend hpc.ne
    · rw [hcompletes.pc] at hend
      obtain hseq | ⟨addr, htarget, -⟩ := shapePc_cases i.toShape s
      · exact ⟨i, hdec, hseq.symm.trans hend⟩
      · exact absurd (htarget.symm.trans hend) addr.isLt.ne
  · cases e <;> exact absurd hend hpc.ne

end Sys2Proof.Proofs
end

section
/-! The frame of every instruction (R21, R22, R112, R124): a bank changes at the destination alone, memory at the stored
addresses alone. -/

namespace Sys2Proof.Proofs

open Sys2Proof.Machine Sys2Proof.Certificates

theorem bankAfter_getElem_of_ne {α : Type} (bank : Vector α 16) (write : Option (RegIdx × α)) {j : RegIdx}
    (h : write.map Prod.fst ≠ some j) : (bankAfter bank write)[j] = bank[j] := by
  cases write with
  | none => rfl
  | some w =>
    have hne : w.1.val ≠ j.val := fun heq => h (congrArg some (Fin.ext heq))
    exact Vector.getElem_set_ne w.1.isLt j.isLt hne

/-- A write to the small bank is to the instruction's small destination. -/
theorem smallWrite_register (i : Instr) (small : Vector Byte 16) (mem : Memory) {r : RegIdx}
    (h : (smallWrite referenceMap i.toShape small mem).map Prod.fst = some r) : smallDestination i = some r := by
  unfold smallDestination
  cases hsh : i.toShape with
  | loadMem | binOpSmall | binOpImmSmall =>
    simp only [hsh, smallWrite, Option.map_map, Option.map_eq_some_iff] at h
    obtain ⟨_, _, rfl⟩ := h
    rfl
  | _ => rw [hsh] at h; cases h

/-- A write to the wide bank is to the instruction's wide destination. -/
theorem wideWrite_register (i : Instr) (wide : Vector Word 16) (mem : Memory) {r : RegIdx}
    (h : (wideWrite referenceMap i.toShape wide mem).map Prod.fst = some r) : wideDestination i = some r := by
  unfold wideDestination
  cases hsh : i.toShape with
  | loadMemWide | binOpWide | binOpImmWide =>
    simp only [hsh, wideWrite, Option.map_map, Option.map_eq_some_iff] at h
    obtain ⟨_, _, rfl⟩ := h
    rfl
  | _ => rw [hsh] at h; cases h

theorem storedAddresses_eq (i : Instr) (s : State) : storedAddresses i = (shapeStores i.toShape s).map Prod.fst := by
  cases i <;> rfl

theorem exec_read_of_not_stored {i : Instr} {s t : State} (hwf : s.mem.wf = true) (h : exec i s = .next t) {a : Nat}
    (ha : a ∉ storedAddresses i) : t.mem.read a = s.mem.read a := by
  obtain ⟨kind, addr, -, rfl⟩ | ⟨hfault, hcompletes⟩ := exec_next_cases h
  · rfl
  · rw [hcompletes.mem]
    rw [storedAddresses_eq i s] at ha
    exact read_storeCells_of_not_mem hwf (shapeStores_inside hfault s) ha

theorem exec_status_cases {i : Instr} {s t : State} (h : exec i s = .next t) :
    t.status = s.status ∨ ∃ kind addr, t = faultedWith s kind addr := by
  obtain ⟨kind, addr, -, hraise⟩ | ⟨-, hcompletes⟩ := exec_next_cases h
  · exact .inr ⟨kind, addr, hraise⟩
  · exact .inl hcompletes.status

/-- Settles O23: the banks by `exec_banks_of_next`, memory and status by `exec_next_cases`, the stream by
`exec_appends_to_any_stream`. -/
theorem everyInstructionChangesOnlyItsDestinations : Obligations.EveryInstructionChangesOnlyItsDestinations := by
  intro i s t hwf hexec
  obtain ⟨hsmall, hwide⟩ := exec_banks_of_next hexec
  obtain ⟨hout, -⟩ := exec_appends_to_any_stream s.out hexec
  refine ⟨fun j hj => ?_, fun j hj => ?_, fun a ha => exec_read_of_not_stored hwf hexec ha, hout,
    exec_status_cases hexec⟩
  · rw [State.readSmall, hsmall]
    exact bankAfter_getElem_of_ne _ _ (mt (smallWrite_register i s.small s.mem) hj)
  · rw [State.readWide, hwide]
    exact bankAfter_getElem_of_ne _ _ (mt (wideWrite_register i s.wide s.mem) hj)

end Sys2Proof.Proofs
end

section
/-! When a step faults (R222, R223, R226), and the invariant of every step (R20, R26, R28). A window tells where in
memory its instruction ends: it has only bytes that memory has. -/

namespace Sys2Proof.Proofs

open Sys2Proof.Machine Sys2Proof.Certificates

/-- What a step of a Running core that faulted did: a decode fault, or the fault of the decoded instruction. -/
theorem step_fault_cases {s t : State} {r : FaultRecord} (hstep : step s = .next t) (hfault : t.status = .faulted r) :
    (∃ e, decode (fetchWindow s.mem s.pc) = .error e ∧ t = s.raiseDecodeError e) ∨
      ∃ i kind addr, decode (fetchWindow s.mem s.pc) = .ok i ∧
        shapeFault referenceMap i.toShape = some (kind, addr) ∧ t = s.raiseFault kind addr := by
  obtain ⟨hrun, ⟨i, hdec, hexec⟩ | herror⟩ := step_next_cases hstep
  · obtain ⟨kind, addr, hshape, hraise⟩ | ⟨-, hcompletes⟩ := exec_next_cases hexec
    · exact .inr ⟨i, kind, addr, hdec, hshape, hraise⟩
    · cases hfault.symm.trans (hcompletes.status.trans hrun)
  · exact .inl herror

theorem raiseFault_precise {s : State} {kind : FaultKind} {addr : Option Nat} {r : FaultRecord}
    (h : (s.raiseFault kind addr).status = .faulted r) :
    s.raiseFault kind addr = faultedWith s r.kind r.addr ∧ r.pc = s.pc := by
  cases h
  exact ⟨rfl, rfl⟩

/-- Settles O15: every fault of a step is raised by `raiseFault`. -/
theorem faultsArePreciseAndEffectFree : Obligations.FaultsArePreciseAndEffectFree := by
  intro s t r _ hstep hfault
  obtain ⟨e, -, rfl⟩ | ⟨i, kind, addr, -, -, rfl⟩ := step_fault_cases hstep hfault
  · cases e <;> exact raiseFault_precise hfault
  · exact raiseFault_precise hfault

theorem decode_of_outside (m : Memory) {pc : Nat} (h : Config.memSize ≤ pc) :
    decode (fetchWindow m pc) = .error .noOpcodeByte :=
  congrArg decode (fetchWindow_of_outside m h)

theorem outside_of_noOpcodeByte {m : Memory} {pc : Nat} (h : decode (fetchWindow m pc) = .error .noOpcodeByte) :
    Config.memSize ≤ pc := by
  by_contra hin
  rw [decode_error_iff, fetchWindow_of_inside m (Nat.lt_of_not_le hin)] at h
  obtain ⟨c, -, hok⟩ | ⟨-, -, htrunc⟩ | ⟨-, -, hok⟩ := decodeShape_cases (m.read pc) (readBytes m (pc + 1) 3)
  · cases hok.symm.trans h
  · cases htrunc.symm.trans h
  · cases hok.symm.trans h

theorem length_opClass_le (c : OpClass) : c.length ≤ maxInstrLength := by
  rcases c with _ | _ | _ | _ | _ | _ | _ | _ | (_ | _ | _ | _) <;> decide

/-- A truncated window has a legal opcode byte whose operand bytes memory does not hold. -/
theorem past_end_of_truncated {m : Memory} {pc : Nat} (h : decode (fetchWindow m pc) = .error .truncated) :
    pc < Config.memSize ∧ illegalOpcode (m.read pc) = none ∧
      Config.memSize < pc + (classify (m.read pc)).length := by
  rw [decode_error_iff] at h
  have hpc : pc < Config.memSize := by
    by_contra hout
    rw [fetchWindow_of_outside m (Nat.le_of_not_lt hout)] at h
    cases h
  rw [fetchWindow_of_inside m hpc] at h
  obtain ⟨c, -, hok⟩ | ⟨hlegal, hshort, -⟩ | ⟨-, -, hok⟩ := decodeShape_cases (m.read pc) (readBytes m (pc + 1) 3)
  · cases hok.symm.trans h
  · have hmax : (classify (m.read pc)).length ≤ 4 := length_opClass_le _
    rw [length_readBytes] at hshort
    exact ⟨hpc, hlegal, by omega⟩
  · cases hok.symm.trans h

/-- Settles O13: the window is cut off exactly where the length of its opcode byte's class runs past the end. -/
theorem truncatedInstructionExactlyPastTheEnd : Obligations.TruncatedInstructionExactlyPastTheEnd := by
  refine ⟨rfl, fun s hrun => ⟨fun ⟨hpc, hmem, hpast⟩ => ?_, fun ⟨t, r, hstep, hfault, hkind⟩ => ?_⟩⟩
  · rw [mem_illegalBytes_iff, not_not] at hmem
    exact step_of_bytes_past_end hrun hpc hmem hpast
  · obtain ⟨e, hdec, rfl⟩ | ⟨i, kind, addr, -, hshape, rfl⟩ := step_fault_cases hstep hfault
    · cases e with
      | noOpcodeByte => cases hfault; cases hkind
      | truncated =>
        obtain ⟨hpc, hlegal, hpast⟩ := past_end_of_truncated hdec
        exact ⟨hpc, fun hmem => (mem_illegalBytes_iff _).mp hmem hlegal, hpast⟩
    · cases hfault
      obtain ⟨rfl, -⟩ | ⟨rfl, -⟩ := shapeFault_eq_some hshape <;> cases hkind

/-- Bytes that are read from an address in memory lie there. -/
theorem bytesAt_of_prefix_readBytes {m : Memory} {a n : Nat} {bs : List Byte} (ha : a ≤ Config.memSize)
    (h : bs <+: readBytes m a n) : bytesAt m a bs := by
  induction bs generalizing a n with
  | nil => exact ⟨ha, nofun⟩
  | cons b bs ih =>
    cases n with
    | zero => cases List.prefix_nil.mp h
    | succ n =>
      rw [readBytes] at h
      split at h
      · next hin =>
        obtain ⟨rfl, htail⟩ := List.cons_prefix_cons.mp h
        have hlt := (inMemory_iff a).mp hin
        exact (bytesAt_cons_iff m a _ bs).mpr ⟨hlt, rfl, ih hlt htail⟩
      · cases List.prefix_nil.mp h

/-- An instruction other than `jmp` decodes only where its encoding lies (R75). -/
theorem bytesAt_encode_of_decode {m : Memory} {pc : Nat} {i : Instr} (hpc : pc ≤ Config.memSize)
    (hnojmp : ∀ addr, i ≠ .jmp addr) (h : decode (fetchWindow m pc) = .ok i) : bytesAt m pc (encode i) := by
  obtain ⟨-, nibble, hprefix⟩ := decode_ok h
  obtain henc | ⟨addr, hjmp, -⟩ := spellings_toShape i nibble
  · exact bytesAt_of_prefix_readBytes hpc (henc ▸ hprefix)
  · exact absurd hjmp (hnojmp addr)

theorem encode_loadmemw_last (r : RegIdx) :
    encode (.loadmemw r 0xFFFF) = [BitVec.ofNat 8 (0x30 + r.val), 0xFF, 0xFF] :=
  congrArg (· :: [0xFF, 0xFF]) (simpleOpcode_eq_ofNat 0b0011 r)

theorem encode_storememw_last (r : RegIdx) :
    encode (.storememw r 0xFFFF) = [BitVec.ofNat 8 (0x50 + r.val), 0xFF, 0xFF] :=
  congrArg (· :: [0xFF, 0xFF]) (simpleOpcode_eq_ofNat 0b0101 r)

/-- Settles O14: beyond memory the window is empty; inside it, the one such fault is that of a word access, whose bytes
lie at pc by `bytesAt_encode_of_decode`. -/
theorem addressOutOfRangeExactlyBeyondMemory : Obligations.AddressOutOfRangeExactlyBeyondMemory := by
  refine ⟨rfl, fun s hrun => ⟨fun hout => ?_, fun r hbytes => ?_, fun ⟨t, r, hstep, hfault, hkind⟩ => ?_⟩⟩
  · exact step_decodeError hrun (decode_of_outside s.mem hout)
  · rw [← encode_loadmemw_last, ← encode_storememw_last] at hbytes
    obtain hload | hstore := hbytes
    · exact (step_of_encode hrun rfl hload).trans ((exec_loadmemw r 0xFFFF s).trans (if_pos rfl))
    · exact (step_of_encode hrun rfl hstore).trans ((exec_storememw r 0xFFFF s).trans (if_pos rfl))
  · obtain hpc | hout := Nat.lt_or_ge s.pc Config.memSize
    · refine .inr ?_
      obtain ⟨e, hdec, rfl⟩ | ⟨i, kind, addr, hdec, hshape, rfl⟩ := step_fault_cases hstep hfault
      · cases e with
        | noOpcodeByte => exact absurd (outside_of_noOpcodeByte hdec) (Nat.not_le.mpr hpc)
        | truncated => cases hfault; cases hkind
      · cases hfault
        obtain ⟨rfl, -⟩ | ⟨-, -, reg, hload | hstore⟩ := shapeFault_eq_some hshape
        · cases hkind
        · cases eq_ofShape_of_toShape hload
          exact ⟨reg, .inl (encode_loadmemw_last reg ▸ bytesAt_encode_of_decode hpc.le nofun hdec)⟩
        · cases eq_ofShape_of_toShape hstore
          exact ⟨reg, .inr (encode_storememw_last reg ▸ bytesAt_encode_of_decode hpc.le nofun hdec)⟩
    · exact .inl hout

/-- A decoded instruction ends within memory. -/
theorem end_le_of_decode {m : Memory} {pc : Nat} {i : Instr} (hpc : pc ≤ Config.memSize)
    (h : decode (fetchWindow m pc) = .ok i) : pc + i.length ≤ Config.memSize := by
  obtain ⟨-, nibble, hprefix⟩ := decode_ok h
  have hlength := hprefix.length_le
  rw [length_spellings_toShape, fetchWindow, length_readBytes] at hlength
  omega

theorem inv_iff (s : State) :
    s.inv = true ↔ s.pc ≤ Config.memSize ∧ s.mem.wf = true ∧ s.statusLegal = true := by
  simp only [State.inv, Bool.and_eq_true, decide_eq_true_iff, and_assoc]

/-- Taking a fault keeps the invariant when the record is a legal one. -/
theorem inv_raiseFault {s : State} {kind : FaultKind} {addr : Option Nat} (hpc : s.pc ≤ Config.memSize)
    (hwf : s.mem.wf = true) (hlegal : FaultRecord.legal ⟨kind, s.pc, addr⟩ = true) :
    (s.raiseFault kind addr).inv = true := by
  refine (inv_iff _).mpr ⟨hpc, hwf, ?_⟩
  simp only [State.statusLegal, State.raiseFault_status, State.raiseFault_pc, hlegal, decide_true, Bool.and_self]

theorem legal_of_pc_le {pc : Nat} (hpc : pc ≤ Config.memSize) :
    FaultRecord.legal ⟨.invalidOperation, pc, none⟩ = true ∧
      FaultRecord.legal ⟨.truncatedInstruction, pc, none⟩ = true ∧
      ∀ a ≤ Config.memSize, FaultRecord.legal ⟨.addressOutOfRange, pc, some a⟩ = true := by
  simp [FaultRecord.legal, hpc]

theorem shapePc_le {sh : Shape} {s : State} (hseq : s.pc + (encodeShape sh).length ≤ Config.memSize) :
    shapePc sh s ≤ Config.memSize := by
  obtain hnext | ⟨addr, htarget, -⟩ := shapePc_cases sh s
  · rwa [hnext]
  · rw [htarget]
    exact addr.isLt.le

/-- Settles O17: a fault raises a legal record; an instruction that takes none ends within memory or jumps into it, and
stores within memory. -/
theorem everyStepKeepsTheInvariant : Obligations.EveryStepKeepsTheInvariant := by
  intro s t hinv hstep
  obtain ⟨hpc, hwf, -⟩ := (inv_iff s).mp hinv
  obtain ⟨hinvalid, htruncated, haddress⟩ := legal_of_pc_le hpc
  obtain ⟨hrun, ⟨i, hdec, hexec⟩ | ⟨e, -, rfl⟩⟩ := step_next_cases hstep
  · obtain ⟨kind, addr, hshape, rfl⟩ | ⟨hnofault, hcompletes⟩ := exec_next_cases hexec
    · obtain ⟨rfl, rfl⟩ | ⟨rfl, rfl, -⟩ := shapeFault_eq_some hshape
      · exact inv_raiseFault hpc hwf hinvalid
      · exact inv_raiseFault hpc hwf (haddress _ le_rfl)
    · refine inv_of_running (hcompletes.status.trans hrun) ?_ ?_
      · rw [hcompletes.pc]
        exact shapePc_le (end_le_of_decode hpc hdec)
      · rw [hcompletes.mem]
        exact storeCells_wf hwf (shapeStores_inside hnofault s)
  · cases e with
    | noOpcodeByte => exact inv_raiseFault hpc hwf (haddress _ hpc)
    | truncated => exact inv_raiseFault hpc hwf htruncated

end Sys2Proof.Proofs
end

section
/-! Stores and later fetches (R55): each byte of a window is the byte of memory at its place. -/

namespace Sys2Proof.Proofs

open Sys2Proof.Machine

theorem getElem?_readBytes (m : Memory) (a n k : Nat) :
    (readBytes m a n)[k]? = if k < n ∧ a + k < Config.memSize then some (m.read (a + k)) else none := by
  induction n generalizing a k with
  | zero => rw [if_neg fun h => Nat.not_lt_zero k h.1]; rfl
  | succ n ih =>
    rw [readBytes]
    split
    · next hin =>
      have hlt := (inMemory_iff a).mp hin
      cases k with
      | zero => rw [if_pos ⟨Nat.succ_pos n, hlt⟩]; rfl
      | succ k =>
        have hplace : a + 1 + k = a + (k + 1) := by omega
        rw [List.getElem?_cons_succ, ih, hplace]
        simp only [Nat.succ_lt_succ_iff]
    · next hout =>
      have hle := Nat.le_of_not_lt (mt (inMemory_iff a).mpr hout)
      rw [if_neg (by omega)]
      rfl

theorem fetchWindow_eq_of_read_eq {m m' : Memory} {pc : Nat}
    (h : ∀ k < maxInstrLength, m.read (pc + k) = m'.read (pc + k)) : fetchWindow m pc = fetchWindow m' pc := by
  refine List.ext_getElem? fun k => ?_
  rw [fetchWindow, fetchWindow, getElem?_readBytes, getElem?_readBytes]
  split
  · next hk => rw [h k hk.1]
  · rfl

/-- Settles O51: the window's bytes are those of memory, which the store changed at its address alone. -/
theorem storedByteIsFetched : Obligations.StoredByteIsFetched := by
  intro r addr s t pc hwf hexec
  cases (exec_storemem r addr s).symm.trans hexec
  refine ⟨fun hle hlt => ?_, fun hapart => fetchWindow_eq_of_read_eq fun k hk => ?_⟩
  · have hplace : pc + (addr.toNat - pc) = addr.toNat := by omega
    have hreach : addr.toNat - pc < maxInstrLength := by
      unfold maxInstrLength
      omega
    rw [fetchWindow, getElem?_readBytes, hplace, if_pos ⟨hreach, addr.isLt⟩, read_write hwf, effectiveAddress,
      if_pos rfl]
  · have hne : pc + k ≠ effectiveAddress addr := by
      unfold maxInstrLength at hk
      unfold effectiveAddress
      omega
    exact (read_write hwf _ _ _).trans (if_neg hne)

end Sys2Proof.Proofs
end

section
/-! The host's runs and reports (R97, R99): a run follows the steps of the machine until its policy or a fault stops it. -/

namespace Sys2Proof.Proofs

open Sys2Proof.Machine

theorem hostStep_of_next {s t : State} (h : step s = .next t) : hostStep s = t := by
  rw [hostStep, h]

theorem isFaulted_of_running {s : State} (h : s.status = .running) : s.isFaulted = false := by
  simp only [State.isFaulted, h]

/-- The first of `n + 1` steps that all answer next. -/
theorem exists_step_of_run_succ {M : Host.Core} {n : Nat} {s t : M.State} (h : M.run (n + 1) s = .next t) :
    ∃ u, M.step s = .next u ∧ M.run n u = .next t := by
  rw [Host.Core.run] at h
  cases hstep : M.step s with
  | next u => exact ⟨u, rfl, by rwa [hstep] at h⟩
  | fault r => rw [hstep] at h; cases h
  | refused r => rw [hstep] at h; cases h

/-- After `done` calls a budget of `done + n` leaves `n` steps. -/
theorem hostRun_stepBudget {n : Nat} {signals : List Bool} {s t : State} (done : Nat) (hlen : n ≤ signals.length)
    (hrun : Sys2Proof.core.run n s = .next t) : hostRun (.stepBudget (done + n)) done signals s = t := by
  induction n generalizing done signals s with
  | zero =>
    cases hrun
    cases signals with
    | nil => rfl
    | cons stop rest =>
      have hstop : hostStops (.stepBudget (done + 0)) done stop t = true := by simp [hostStops]
      rw [hostRun, if_pos hstop]
  | succ n ih =>
    obtain ⟨u, hstep, hrest⟩ := exists_step_of_run_succ hrun
    obtain ⟨hrunning, -⟩ := step_next_cases hstep
    cases signals with
    | nil => cases hlen
    | cons stop rest =>
      have hgo : ¬ hostStops (.stepBudget (done + (n + 1))) done stop s = true := by
        simp [hostStops, isFaulted_of_running hrunning]
      rw [hostRun, if_neg hgo, hostStep_of_next hstep, Nat.add_comm n 1, ← Nat.add_assoc]
      exact ih (done + 1) (Nat.le_of_succ_le_succ hlen) hrest

/-- Settles O52, by `hostRun_stepBudget` with no call made yet. -/
theorem stepBudgetRunsThatManySteps : Obligations.StepBudgetRunsThatManySteps := by
  intro n signals s t hlen hrun
  have hbudget := hostRun_stepBudget 0 hlen hrun
  rwa [Nat.zero_add] at hbudget

/-- Settles O53, by induction on the gaps before the signal. -/
theorem externalStopEndsTheRun : Obligations.ExternalStopEndsTheRun := by
  intro before after done s
  induction before generalizing done s with
  | nil => exact if_pos (Bool.or_true s.isFaulted)
  | cons stop rest ih => rw [List.cons_append, hostRun, hostRun, ih]

/-- Settles O54: the step past the end takes AddressOutOfRange, which `report` reads under each policy. -/
theorem pcLeavesMemoryIsNormalTermination : Obligations.PcLeavesMemoryIsNormalTermination := by
  intro s n hrun hpc
  have hstep := step_decodeError hrun (decode_of_outside s.mem (pc := s.pc) hpc.ge)
  have hstatus : (hostStep s).status = .faulted ⟨.addressOutOfRange, 65536, some 65536⟩ := by
    rw [hostStep_of_next hstep, State.raiseDecodeError, State.raiseFault_status, hpc]
  simp only [report, hstatus]
  exact ⟨if_pos rfl, trivial, trivial⟩

end Sys2Proof.Proofs
end

section
/-! The reset state (R250, R251), the words of table L2-D2 (95_test_vectors.md) and the pseudo-instructions (R77). -/

namespace Sys2Proof.Proofs

open Sys2Proof.Machine

/-- Settles O3: eight closed evaluations of the decoder. -/
theorem writtenWordsDecode : Obligations.WrittenWordsDecode :=
  ⟨rfl, rfl, rfl, rfl, rfl, rfl, rfl, rfl⟩

/-- Settles O18, by `inv_of_running`. -/
theorem resetHasTheInvariant : Obligations.ResetHasTheInvariant :=
  inv_of_running rfl (Nat.zero_le _) reset_mem_wf

/-- Settles O19: each register is a place of `Vector.replicate`, and no byte of memory is listed. -/
theorem resetLeavesTheStatedValues : Obligations.ResetLeavesTheStatedValues :=
  ⟨rfl, rfl, rfl, fun i => ⟨Vector.getElem_replicate i.isLt, Vector.getElem_replicate i.isLt⟩, fun _ => rfl⟩

/-- The instruction that copies a register to itself. -/
theorem exec_copy_self (a : RegIdx) (s : State) : exec (.copy a a) s = .next { s with pc := s.pc + 2 } := by
  have hself : s.small.set a s.small[a] = s.small := Vector.set_getElem_self a.isLt
  have hexec : exec (.copy a a) s = .next { s with small := s.small.set a s.small[a], pc := s.pc + 2 } := rfl
  rw [hexec, hself]

theorem exec_jmp_self {addr : Addr} {s : State} (h : s.pc = addr.toNat) : exec (.jmp addr) s = .next s := by
  rw [exec_jmp, ← h]

/-- Settles O55: each expansion is one instruction, whose next state is written out by the arithmetic forms, by
`exec_copy_self` or by `exec_jmp_self`. -/
theorem pseudoInstructionsDoWhatTheySay : Obligations.PseudoInstructionsDoWhatTheySay := by
  intro s here a b v x
  exact ⟨binOpImmSmall_eq .copy a 0 v s, binOpImmWide_eq .copy a 0 x s, binOpSmall_eq .copy a b s,
    binOpWide_eq .copy a b s, exec_copy_self 0 s, binOpImmSmall_eq .addm a a 1 s, binOpImmSmall_eq .subm a a 1 s,
    exec_jmp_self⟩

end Sys2Proof.Proofs
end

section
/-! The ALU against the formulas of 44_alu.md (R152 to R183): the value of each operation that is not one of the
saturating, wrapping, comparing or counting ones above, at any number of bits. -/

namespace Sys2Proof.Proofs

open Sys2Proof.Machine Sys2Proof.Certificates

theorem bits_pos (w : Width) : 0 < w.bits := by
  cases w <;> decide

theorem toNat_aluNot {n : Nat} (a b : BitVec n) : (aluNot a b).toNat = b.toNat ^^^ (2 ^ n - 1) := by
  rw [aluNot, BitVec.toNat_xor, BitVec.toNat_allOnes]

theorem toNat_aluNeg {n : Nat} (a b : BitVec n) : (aluNeg a b).toNat = 2 ^ n - 1 - b.toNat := by
  have hlt := b.isLt
  have hle : b ≤ BitVec.allOnes n := by
    rw [BitVec.le_def, BitVec.toNat_allOnes]
    omega
  rw [aluNeg, BitVec.toNat_sub_of_le hle, BitVec.toNat_allOnes]

theorem toNat_aluNumones (w : Width) (a b : BitVec w.bits) :
    (aluNumones w a b).toNat = formula .numones w a.toNat b.toNat := by
  cases w with
  | small => rfl
  | wide =>
    rw [aluNumones, joinBytes_toNat, highByte_toNat, lowByte_toNat]
    simp only [formula]
    omega

theorem toNat_aluShl {n : Nat} (a b : BitVec n) :
    (aluShl a b).toNat = if n ≤ b.toNat then 0 else a.toNat * 2 ^ b.toNat % 2 ^ n := by
  rw [aluShl]
  split
  · exact BitVec.toNat_zero
  · rw [BitVec.toNat_shiftLeft, Nat.shiftLeft_eq]

theorem toNat_aluShr {n : Nat} (a b : BitVec n) :
    (aluShr a b).toNat = if n ≤ b.toNat then 0 else a.toNat / 2 ^ b.toNat := by
  rw [aluShr]
  split
  · exact BitVec.toNat_zero
  · rw [BitVec.toNat_ushiftRight, Nat.shiftRight_eq_div_pow]

theorem toNat_aluShlm {n : Nat} (a b : BitVec n) :
    (aluShlm a b).toNat = a.toNat * 2 ^ (b.toNat % n) % 2 ^ n := by
  rw [aluShlm, BitVec.toNat_shiftLeft, Nat.shiftLeft_eq]

theorem toNat_aluShrm {n : Nat} (a b : BitVec n) : (aluShrm a b).toNat = a.toNat / 2 ^ (b.toNat % n) := by
  rw [aluShrm, BitVec.toNat_ushiftRight, Nat.shiftRight_eq_div_pow]

/-- The two parts of a rotation share no bit: the upper `i` places and the lower `j` of `i + j`. -/
theorem rotation_or_eq_add {x i j : Nat} (hx : x < 2 ^ (i + j)) :
    x * 2 ^ j % 2 ^ (i + j) ||| x / 2 ^ i = x * 2 ^ j % 2 ^ (i + j) + x / 2 ^ i := by
  have hlow : x / 2 ^ i < 2 ^ j := Nat.div_lt_of_lt_mul (Nat.pow_add 2 i j ▸ hx)
  rw [Nat.pow_add, Nat.mul_mod_mul_right, ← Nat.shiftLeft_eq]
  exact (Nat.shiftLeft_add_eq_or_of_lt hlow _).symm

theorem toNat_aluRotl {n : Nat} (hn : 0 < n) (a b : BitVec n) :
    (aluRotl a b).toNat = a.toNat * 2 ^ (b.toNat % n) % 2 ^ n + a.toNat / 2 ^ (n - b.toNat % n) := by
  have hsplit : n - b.toNat % n + b.toNat % n = n := Nat.sub_add_cancel (Nat.mod_lt _ hn).le
  have hor := rotation_or_eq_add (x := a.toNat) (i := n - b.toNat % n) (j := b.toNat % n) (hsplit.symm ▸ a.isLt)
  rw [hsplit] at hor
  rw [aluRotl, BitVec.toNat_or, BitVec.toNat_shiftLeft, BitVec.toNat_ushiftRight, Nat.shiftLeft_eq,
    Nat.shiftRight_eq_div_pow, hor]

theorem toNat_aluRotr {n : Nat} (hn : 0 < n) (a b : BitVec n) :
    (aluRotr a b).toNat = a.toNat / 2 ^ (b.toNat % n) + a.toNat * 2 ^ (n - b.toNat % n) % 2 ^ n := by
  have hsplit : b.toNat % n + (n - b.toNat % n) = n := Nat.add_sub_cancel' (Nat.mod_lt _ hn).le
  have hor := rotation_or_eq_add (x := a.toNat) (i := b.toNat % n) (j := n - b.toNat % n) (hsplit.symm ▸ a.isLt)
  rw [hsplit] at hor
  rw [aluRotr, BitVec.toNat_or, BitVec.toNat_shiftLeft, BitVec.toNat_ushiftRight, Nat.shiftLeft_eq,
    Nat.shiftRight_eq_div_pow, Nat.or_comm, hor, Nat.add_comm]

theorem toNat_aluAbsdiff {n : Nat} (a b : BitVec n) :
    (aluAbsdiff a b).toNat = if a.toNat ≤ b.toNat then b.toNat - a.toNat else a.toNat - b.toNat := by
  rw [aluAbsdiff]
  by_cases hle : a ≤ b
  · rw [if_pos hle, if_pos (BitVec.le_def.mp hle), BitVec.toNat_sub_of_le hle]
  · have hge : b ≤ a := BitVec.le_def.mpr (Nat.le_of_not_le hle)
    rw [if_neg hle, if_neg (mt BitVec.le_def.mpr hle), BitVec.toNat_sub_of_le hge]

theorem toNat_aluDiv {n : Nat} (a b : BitVec n) : (aluDiv a b).toNat = a.toNat / max b.toNat 1 :=
  (BitVec.toNat_ofNat _ _).trans (Nat.mod_eq_of_lt ((Nat.div_le_self _ _).trans_lt a.isLt))

theorem toNat_aluMod {n : Nat} (a b : BitVec n) : (aluMod a b).toNat = a.toNat % max b.toNat 1 :=
  (BitVec.toNat_ofNat _ _).trans (Nat.mod_eq_of_lt ((Nat.mod_le _ _).trans_lt a.isLt))

/-- Settles O44: the law of natural division by a divisor that is not 0. -/
theorem divisionLaw : Obligations.DivisionLaw := by
  intro w a b
  have hdiv : (alu .div w a b).toNat = a.toNat / max b.toNat 1 := toNat_aluDiv a b
  have hmod : (alu .mod w a b).toNat = a.toNat % max b.toNat 1 := toNat_aluMod a b
  rw [hdiv, hmod]
  exact ⟨(Nat.div_add_mod _ _).symm, Nat.mod_lt _ (Nat.le_max_right _ 1)⟩

/-- Repeated squaring gives the narrowed power, for a narrowing that may be applied to a factor at any time. -/
theorem powerBy_eq_narrow_pow {narrow : Nat → Nat} (hone : narrow 1 = 1)
    (hmul : ∀ x y, narrow (narrow x * y) = narrow (x * y)) (b e k : Nat) :
    powerBy narrow b e k = narrow (b ^ (e % 2 ^ k)) := by
  induction k generalizing e with
  | zero => rw [powerBy, Nat.pow_zero, Nat.mod_one, Nat.pow_zero, hone]
  | succ k ih =>
    have hsquare (x : Nat) : narrow (narrow x * narrow x) = narrow (x * x) := by
      rw [hmul, Nat.mul_comm, hmul]
    have hexp : e % 2 ^ (k + 1) = e / 2 % 2 ^ k + e / 2 % 2 ^ k + e % 2 := by
      rw [Nat.pow_succ', Nat.mod_mul]
      omega
    rw [hexp, Nat.pow_add, Nat.pow_add]
    simp only [powerBy, ih, hsquare]
    obtain heven | hodd := Nat.mod_two_eq_zero_or_one e
    · rw [if_neg (by omega), heven, Nat.pow_zero, Nat.mul_one]
    · rw [if_pos hodd, hodd, Nat.pow_one, hmul]

theorem toNat_aluPowm {n : Nat} (hn : 0 < n) (a b : BitVec n) :
    (aluPowm a b).toNat = a.toNat ^ b.toNat % 2 ^ n := by
  have hone : 1 % 2 ^ n = 1 := Nat.mod_eq_of_lt (Nat.one_lt_two_pow hn.ne')
  have hmul (x y : Nat) : x % 2 ^ n * y % 2 ^ n = x * y % 2 ^ n := Nat.mod_mul_mod x y (2 ^ n)
  rw [aluPowm, powerBy_eq_narrow_pow hone hmul, BitVec.toNat_ofNat, Nat.mod_mod, Nat.mod_eq_of_lt b.isLt]

/-- A factor that exceeds the bound makes the product exceed it, or the other factor is 0. -/
theorem min_min_mul (x y bound : Nat) : min (min x bound * y) bound = min (x * y) bound := by
  obtain hle | hgt := Nat.le_total x bound
  · rw [Nat.min_eq_left hle]
  · rw [Nat.min_eq_right hgt]
    obtain rfl | hy := Nat.eq_zero_or_pos y
    · rfl
    · have hbound : bound ≤ bound * y := Nat.le_mul_of_pos_right bound hy
      rw [Nat.min_eq_right hbound, Nat.min_eq_right (hbound.trans (Nat.mul_le_mul_right y hgt))]

theorem toNat_aluPowc {n : Nat} (hn : 0 < n) (a b : BitVec n) :
    (aluPowc a b).toNat = min (a.toNat ^ b.toNat) (2 ^ n - 1) := by
  have hmax : 1 < 2 ^ n := Nat.one_lt_two_pow hn.ne'
  have hone : min 1 (maxOf n) = 1 := Nat.min_eq_left (Nat.le_sub_one_of_lt hmax)
  rw [aluPowc, powerBy_eq_narrow_pow hone fun x y => min_min_mul x y (maxOf n), Nat.mod_eq_of_lt b.isLt]
  exact toNat_saturate n _

/-- Every operation at both widths is its formula. -/
theorem toNat_alu (op : AluOp) (w : Width) (a b : BitVec w.bits) :
    (alu op w a b).toNat = formula op w a.toNat b.toNat := by
  obtain ⟨haddc, hsubc, hmulc⟩ := saturatingOperationsClamp w a b
  obtain ⟨haddm, hsubm, hmulm⟩ := modularOperationsWrap w a b
  obtain ⟨hgt, hge, hlt, hle, heq, hne⟩ := comparisonsGiveOneOrZero w a b
  cases op with
  | copy => rfl
  | not => exact toNat_aluNot a b
  | neg => exact toNat_aluNeg a b
  | reverse => exact (toNat_aluReverse a b).trans (reverseLow_eq_sum b w.bits)
  | numones => exact toNat_aluNumones w a b
  | numzeros => exact (toNat_aluNumzeros a b).trans (popcountLow_eq_card b w.bits)
  | and => exact BitVec.toNat_and a b
  | or => exact BitVec.toNat_or a b
  | xor => exact BitVec.toNat_xor a b
  | shl => exact toNat_aluShl a b
  | shr => exact toNat_aluShr a b
  | shlm => exact toNat_aluShlm a b
  | shrm => exact toNat_aluShrm a b
  | rotl => exact toNat_aluRotl (bits_pos w) a b
  | rotr => exact toNat_aluRotr (bits_pos w) a b
  | addc => exact haddc
  | subc => exact hsubc
  | addm => exact haddm
  | subm => exact hsubm
  | absdiff => exact toNat_aluAbsdiff a b
  | mulc => exact hmulc
  | mulm => exact hmulm
  | div => exact toNat_aluDiv a b
  | mod => exact (toNat_aluMod a b).trans (Nat.mod_eq_sub_mul_div ..)
  | powm => exact toNat_aluPowm (bits_pos w) a b
  | powc => exact toNat_aluPowc (bits_pos w) a b
  | gt => exact hgt
  | ge => exact hge
  | lt => exact hlt
  | le => exact hle
  | eq => exact heq
  | ne => exact hne

/-- Settles O38, by the case split over the operations in `toNat_alu`. -/
theorem aluEqualsTheStatedFormulas : Obligations.AluEqualsTheStatedFormulas := toNat_alu

/-- Settles O46: the powers of `toNat_alu`; 2 ^ BITS divides the first and is at most the second. -/
theorem powerCornerCases : Obligations.PowerCornerCases := by
  intro w a b
  have hpowm (b : BitVec w.bits) : (alu .powm w a b).toNat = a.toNat ^ b.toNat % 2 ^ w.bits :=
    toNat_alu .powm w a b
  have hpowc (b : BitVec w.bits) : (alu .powc w a b).toNat = min (a.toNat ^ b.toNat) (2 ^ w.bits - 1) :=
    toNat_alu .powc w a b
  refine ⟨⟨?_, ?_⟩, fun heven hbits => ?_, fun htwo hbits => ?_⟩
  · apply BitVec.eq_of_toNat_eq
    rw [hpowm]
    cases w <;> rfl
  · apply BitVec.eq_of_toNat_eq
    rw [hpowc]
    cases w <;> rfl
  · have hdvd : 2 ^ w.bits ∣ a.toNat ^ b.toNat :=
      (pow_dvd_pow 2 hbits).trans (pow_dvd_pow_of_dvd (Nat.dvd_of_mod_eq_zero heven) _)
    exact BitVec.eq_of_toNat_eq ((hpowm b).trans (Nat.mod_eq_zero_of_dvd hdvd))
  · have hle : 2 ^ w.bits ≤ a.toNat ^ b.toNat :=
      (Nat.pow_le_pow_right Nat.two_pos hbits).trans (Nat.pow_le_pow_left htwo _)
    apply BitVec.eq_of_toNat_eq
    rw [hpowc, BitVec.toNat_allOnes, Nat.min_eq_right ((Nat.sub_le _ 1).trans hle)]

end Sys2Proof.Proofs
end

section
/-! The arithmetic instructions (R200 to R203): each names its operation, so its result is the ALU's, that is, the
formula's. -/

namespace Sys2Proof.Proofs

open Sys2Proof.Machine Sys2Proof.Certificates

theorem alu_eq_ofNat_formula (op : AluOp) (w : Width) (a b : BitVec w.bits) :
    alu op w a b = BitVec.ofNat w.bits (formula op w a.toNat b.toNat) := by
  rw [← toNat_alu, BitVec.ofNat_toNat, BitVec.setWidth_eq]

theorem exec_of_mem_binOpSmallForms {f : AluOp × (RegIdx → RegIdx → Instr)} (hf : f ∈ binOpSmallForms) (a b : RegIdx)
    (s : State) : exec (f.2 a b) s = binOpSmall f.1 a b s := by
  fin_cases hf <;> rfl

theorem exec_of_mem_binOpWideForms {f : AluOp × (RegIdx → RegIdx → Instr)} (hf : f ∈ binOpWideForms) (a b : RegIdx)
    (s : State) : exec (f.2 a b) s = binOpWide f.1 a b s := by
  fin_cases hf <;> rfl

theorem exec_of_mem_binOpImmSmallForms {f : AluOp × (RegIdx → RegIdx → Byte → Instr)} (hf : f ∈ binOpImmSmallForms)
    (a b : RegIdx) (v : Byte) (s : State) : exec (f.2 a b v) s = binOpImmSmall f.1 a b v s := by
  fin_cases hf <;> rfl

theorem exec_of_mem_binOpImmWideForms {f : AluOp × (RegIdx → RegIdx → Word → Instr)} (hf : f ∈ binOpImmWideForms)
    (a b : RegIdx) (v : Word) (s : State) : exec (f.2 a b v) s = binOpImmWide f.1 a b v s := by
  fin_cases hf <;> rfl

/-- Settles O34: the result of `binOpSmall_eq` is the formula's by `alu_eq_ofNat_formula`. -/
theorem everyBinOpSmallComputesItsFormula : Obligations.EveryBinOpSmallComputesItsFormula := by
  intro f hf a b s
  rw [exec_of_mem_binOpSmallForms hf, binOpSmall_eq, alu_eq_ofNat_formula]
  rfl

/-- Settles O35: the result of `binOpWide_eq` is the formula's by `alu_eq_ofNat_formula`. -/
theorem everyBinOpWideComputesItsFormula : Obligations.EveryBinOpWideComputesItsFormula := by
  intro f hf a b s
  rw [exec_of_mem_binOpWideForms hf, binOpWide_eq, alu_eq_ofNat_formula]
  rfl

/-- Settles O36: the result of `binOpImmSmall_eq` is the formula's by `alu_eq_ofNat_formula`. -/
theorem everyBinOpImmSmallComputesItsFormula : Obligations.EveryBinOpImmSmallComputesItsFormula := by
  intro f hf a b v s
  rw [exec_of_mem_binOpImmSmallForms hf, binOpImmSmall_eq, alu_eq_ofNat_formula]
  rfl

/-- Settles O37: the result of `binOpImmWide_eq` is the formula's by `alu_eq_ofNat_formula`. -/
theorem everyBinOpImmWideComputesItsFormula : Obligations.EveryBinOpImmWideComputesItsFormula := by
  intro f hf a b v s
  rw [exec_of_mem_binOpImmWideForms hf, binOpImmWide_eq, alu_eq_ofNat_formula]
  rfl

end Sys2Proof.Proofs
end

section
/-! Rotations (R165, R166) bit by bit: a rotation by `k` takes the bits below place `n - k` up by `k` and the others to
the bottom, so the other one takes them back, and the bits that are set are as many. -/

namespace Sys2Proof.Proofs

open Sys2Proof.Machine

theorem aluRotl_eq_rotateLeft {n : Nat} (a b : BitVec n) : aluRotl a b = a.rotateLeft b.toNat := rfl

theorem aluRotr_eq_rotateRight {n : Nat} (a b : BitVec n) : aluRotr a b = a.rotateRight b.toNat := rfl

theorem getLsbD_aluRotl {n : Nat} (a b : BitVec n) {i : Nat} (hi : i < n) :
    (aluRotl a b).getLsbD i =
      if i < b.toNat % n then a.getLsbD (n - b.toNat % n + i) else a.getLsbD (i - b.toNat % n) := by
  rw [aluRotl_eq_rotateLeft, BitVec.getLsbD_rotateLeft, decide_eq_true hi, Bool.true_and, Bool.cond_decide]

theorem getLsbD_aluRotr {n : Nat} (a b : BitVec n) {i : Nat} (hi : i < n) :
    (aluRotr a b).getLsbD i =
      if i < n - b.toNat % n then a.getLsbD (b.toNat % n + i) else a.getLsbD (i - (n - b.toNat % n)) := by
  rw [aluRotr_eq_rotateRight, BitVec.getLsbD_rotateRight, decide_eq_true hi, Bool.true_and, Bool.cond_decide]

theorem aluRotr_aluRotl {n : Nat} (a b : BitVec n) : aluRotr (aluRotl a b) b = a := by
  refine BitVec.eq_of_getLsbD_eq fun i hi => ?_
  have hk : b.toNat % n < n := Nat.mod_lt _ (by omega)
  rw [getLsbD_aluRotr _ _ hi]
  split
  · rw [getLsbD_aluRotl _ _ (by omega), if_neg (by omega), Nat.add_sub_cancel_left]
  · rw [getLsbD_aluRotl _ _ (by omega), if_pos (by omega), Nat.add_sub_cancel' (by omega)]

theorem aluRotl_aluRotr {n : Nat} (a b : BitVec n) : aluRotl (aluRotr a b) b = a := by
  refine BitVec.eq_of_getLsbD_eq fun i hi => ?_
  have hk : b.toNat % n < n := Nat.mod_lt _ (by omega)
  rw [getLsbD_aluRotl _ _ hi]
  split
  · rw [getLsbD_aluRotr _ _ (by omega), if_neg (by omega), Nat.add_sub_cancel_left]
  · rw [getLsbD_aluRotr _ _ (by omega), if_pos (by omega), Nat.add_sub_cancel' (by omega)]

theorem popcountLow_eq_sum {n : Nat} (b : BitVec n) (k : Nat) :
    popcountLow b k = ∑ i ∈ Finset.range k, (b.getLsbD i).toNat := by
  induction k with
  | zero => rfl
  | succ k ih => rw [popcountLow, ih, Finset.sum_range_succ]

/-- The count of all bits is that of the lower `n - k` and that of the upper `k`, which a rotation by `k` swaps. -/
theorem popcountLow_aluRotl {n : Nat} (hn : 0 < n) (a b : BitVec n) : popcountLow (aluRotl a b) n = popcountLow a n := by
  have hk : b.toNat % n < n := Nat.mod_lt _ hn
  have hlow : ∀ i ∈ Finset.range (b.toNat % n),
      ((aluRotl a b).getLsbD i).toNat = (a.getLsbD (n - b.toNat % n + i)).toNat := by
    intro i hi
    have hlt := Finset.mem_range.mp hi
    rw [getLsbD_aluRotl a b (by omega), if_pos hlt]
  have hhigh : ∀ i ∈ Finset.range (n - b.toNat % n),
      ((aluRotl a b).getLsbD (b.toNat % n + i)).toNat = (a.getLsbD i).toNat := by
    intro i hi
    have hlt := Finset.mem_range.mp hi
    rw [getLsbD_aluRotl a b (by omega), if_neg (by omega), Nat.add_sub_cancel_left]
  calc popcountLow (aluRotl a b) n
      = ∑ i ∈ Finset.range (b.toNat % n + (n - b.toNat % n)), ((aluRotl a b).getLsbD i).toNat := by
        rw [popcountLow_eq_sum, Nat.add_sub_cancel' hk.le]
    _ = ∑ i ∈ Finset.range (b.toNat % n), (a.getLsbD (n - b.toNat % n + i)).toNat +
          ∑ i ∈ Finset.range (n - b.toNat % n), (a.getLsbD i).toNat := by
        rw [Finset.sum_range_add, Finset.sum_congr rfl hlow, Finset.sum_congr rfl hhigh]
    _ = ∑ i ∈ Finset.range (n - b.toNat % n + b.toNat % n), (a.getLsbD i).toNat := by
        rw [Finset.sum_range_add, Nat.add_comm]
    _ = popcountLow a n := by
        rw [popcountLow_eq_sum, Nat.sub_add_cancel hk.le]

/-- Settles O45: each rotation undoes the other bit by bit, and the counts agree by `popcountLow_aluRotl`. -/
theorem rotationsUndoEachOther : Obligations.RotationsUndoEachOther :=
  fun w a b _ => ⟨aluRotr_aluRotl a b, aluRotl_aluRotr a b,
    congrArg (BitVec.ofNat w.bits) (popcountLow_aluRotl (bits_pos w) a b)⟩

end Sys2Proof.Proofs
end
